-- ==== Sys2Proof/Word.lean ====
section
/-! DEFINITION. The two word types of KBDEC: the input byte (30_encoding.md R55) and the key code (R56). -/

namespace Sys2Proof

/-- An 8-bit value: an input scancode, a ROM entry or an output character (20_memory.md R46). -/
abbrev Byte := BitVec 8

/-- A 7-bit key code 0..127 (30_encoding.md R55), which is also the ROM address (20_memory.md R42). -/
abbrev KeyCode := BitVec 7

end Sys2Proof
end

