-- ==== Sys2Proof/Config.lean ====
section
/-! DEFINITION. The parameters of KBDEC (00_scope.md R7) and the values the spec fixes for every KBDEC. -/

namespace Sys2Proof

/-- Entries of one keymap table, `KEYMAP_ENTRIES` (00_scope.md R7, fixed at 128). -/
abbrev keymapEntries : Nat := 128

/-- Escape presses that request shutdown, `ESC_LIMIT` (00_scope.md R7, fixed at 3). -/
abbrev escLimit : Nat := 3

/-- The two keymap tables (10_state.md R32). -/
inductive Table where
  | primary
  | secondary
  deriving DecidableEq, Repr

/-- A parameter set (00_scope.md R7). `KEYMAP_WIDTH` = 8 and `CODE_WIDTH` = 7 are the widths of the types.
`LOG_LEVEL_MAX` and `LOG_LEVEL_RESET` belong to the sink, outside KBDEC (92_eei_decisions.md D12), and are
arguments of the sink's functions. -/
structure Config where
  /-- `CTRL_CODES` -/
  ctrlCodes : List KeyCode
  /-- `ALT_CODES` -/
  altCodes : List KeyCode
  /-- `SHIFT_CODES` -/
  shiftCodes : List KeyCode
  /-- `CAPS_CODE` -/
  capsCode : KeyCode
  /-- `NUM_CODE` -/
  numCode : KeyCode
  /-- `NUMPAD_LO`, inclusive -/
  numpadLo : KeyCode
  /-- `NUMPAD_HI`, inclusive -/
  numpadHi : KeyCode
  /-- `PRIMARY_ROM`, entry of code 0 first -/
  primaryRom : List Byte
  /-- `SECONDARY_ROM`, entry of code 0 first -/
  secondaryRom : List Byte
  /-- `UNMAPPED`, the unmapped marker (reference 0x00, 92_eei_decisions.md D7) -/
  unmapped : Byte
  /-- `ESC_CHAR`, the character ESCAPE (reference 0x1B, 92_eei_decisions.md D8) -/
  escChar : Byte
  /-- whether this parameter set claims to be the source's hardware, which makes R8(d) ask for the two table entries
  (DESIGN CHOICE: log entry 5) -/
  sourceHardware : Bool
  deriving DecidableEq, Repr

/-- The contents of one table. -/
def Config.table (c : Config) : Table → List Byte
  | .primary => c.primaryRom
  | .secondary => c.secondaryRom

end Sys2Proof
end

