-- ==== Sys2Proof/Machine/Reference.lean ====
section
/-! DEFINITION. The reference parameter set: the reference key codes of 00_scope.md R7 (92_eei_decisions.md D5, D6) and the
reference ROM of 20_memory.md R45 (D9). PRESUMED by the spec itself (general knowledge, not in source): it is one named
parameter set, and no meaning depends on it (log entry 2). -/

namespace Sys2Proof

/-- `PRIMARY_ROM` of 20_memory.md R45, sixteen codes a line from 0x00; a code R45 does not list holds 0x00. -/
def referencePrimaryRom : List Byte :=
  [0x00, 0x1B, 0x31, 0x32, 0x33, 0x34, 0x35, 0x36, 0x37, 0x38, 0x39, 0x30, 0x2D, 0x3D, 0x08, 0x09] ++
  [0x71, 0x77, 0x65, 0x72, 0x74, 0x79, 0x75, 0x69, 0x6F, 0x70, 0x5B, 0x5D, 0x0A, 0x00, 0x61, 0x73] ++
  [0x64, 0x66, 0x67, 0x68, 0x6A, 0x6B, 0x6C, 0x3B, 0x27, 0x60, 0x00, 0x5C, 0x7A, 0x78, 0x63, 0x76] ++
  [0x62, 0x6E, 0x6D, 0x2C, 0x2E, 0x2F, 0x00, 0x2A, 0x00, 0x20, 0x00, 0x00, 0x00, 0x00, 0x00, 0x00] ++
  [0x00, 0x00, 0x00, 0x00, 0x00, 0x00, 0x00, 0x00, 0x00, 0x00, 0x00, 0x00, 0x00, 0x00, 0x00, 0x00] ++
  [0x00, 0x00, 0x00, 0x00, 0x00, 0x00, 0x00, 0x00, 0x00, 0x00, 0x00, 0x00, 0x00, 0x00, 0x00, 0x00] ++
  [0x00, 0x00, 0x00, 0x00, 0x00, 0x00, 0x00, 0x00, 0x00, 0x00, 0x00, 0x00, 0x00, 0x00, 0x00, 0x00] ++
  [0x00, 0x00, 0x00, 0x00, 0x00, 0x00, 0x00, 0x00, 0x00, 0x00, 0x00, 0x00, 0x00, 0x00, 0x00, 0x00]

/-- `SECONDARY_ROM` of 20_memory.md R45, sixteen codes a line from 0x00; a code R45 does not list holds 0x00. -/
def referenceSecondaryRom : List Byte :=
  [0x00, 0x1B, 0x21, 0x40, 0x23, 0x24, 0x25, 0x5E, 0x26, 0x2A, 0x28, 0x29, 0x5F, 0x2B, 0x08, 0x09] ++
  [0x51, 0x57, 0x45, 0x52, 0x54, 0x59, 0x55, 0x49, 0x4F, 0x50, 0x7B, 0x7D, 0x0A, 0x00, 0x41, 0x53] ++
  [0x44, 0x46, 0x47, 0x48, 0x4A, 0x4B, 0x4C, 0x3A, 0x22, 0x7E, 0x00, 0x7C, 0x5A, 0x58, 0x43, 0x56] ++
  [0x42, 0x4E, 0x4D, 0x3C, 0x3E, 0x3F, 0x00, 0x2A, 0x00, 0x20, 0x00, 0x00, 0x00, 0x00, 0x00, 0x00] ++
  [0x00, 0x00, 0x00, 0x00, 0x00, 0x00, 0x00, 0x37, 0x38, 0x39, 0x2D, 0x34, 0x35, 0x36, 0x2B, 0x31] ++
  [0x32, 0x33, 0x30, 0x2E, 0x00, 0x00, 0x00, 0x00, 0x00, 0x00, 0x00, 0x00, 0x00, 0x00, 0x00, 0x00] ++
  [0x00, 0x00, 0x00, 0x00, 0x00, 0x00, 0x00, 0x00, 0x00, 0x00, 0x00, 0x00, 0x00, 0x00, 0x00, 0x00] ++
  [0x00, 0x00, 0x00, 0x00, 0x00, 0x00, 0x00, 0x00, 0x00, 0x00, 0x00, 0x00, 0x00, 0x00, 0x00, 0x00]

/-- The reference defaults of 00_scope.md R7 with the reference ROM of 20_memory.md R45. It claims to be the source's
hardware, so R8(d) applies to it. -/
def referenceConfig : Config where
  ctrlCodes := [0x1D]
  altCodes := [0x38]
  shiftCodes := [0x2A, 0x36]
  capsCode := 0x3A
  numCode := 0x45
  numpadLo := 0x47
  numpadHi := 0x53
  primaryRom := referencePrimaryRom
  secondaryRom := referenceSecondaryRom
  unmapped := 0x00
  escChar := 0x1B
  sourceHardware := true

end Sys2Proof
end

