-- ==== Sys2Proof/Syntax.lean ====
section
/-! DEFINITION. The instructions of KBDEC: one constructor per byte class of 30_encoding.md R57, which are the rows of
spec/opcode_table.json. The one operand of each is the key code (R59). -/

namespace Sys2Proof

/-- A momentary modifier (00_scope.md R12). -/
inductive Modifier where
  | ctrl
  | alt
  | shift
  deriving DecidableEq, Repr

/-- A lock key, whose latch a press toggles (00_scope.md R12). -/
inductive Lock where
  | caps
  | num
  deriving DecidableEq, Repr

/-- What a key code is (30_encoding.md R58); REGULAR is split into its sub-classes KEYPAD and KEY. -/
inductive KeyClass where
  | mod (m : Modifier)
  | lock (l : Lock)
  | keypad
  | key
  deriving DecidableEq, Repr

/-- The byte classes (30_encoding.md R57). -/
inductive Instr where
  | ctrlMake (code : KeyCode)
  | ctrlBreak (code : KeyCode)
  | altMake (code : KeyCode)
  | altBreak (code : KeyCode)
  | shiftMake (code : KeyCode)
  | shiftBreak (code : KeyCode)
  | capsMake (code : KeyCode)
  | capsBreak (code : KeyCode)
  | numMake (code : KeyCode)
  | numBreak (code : KeyCode)
  | keypadMake (code : KeyCode)
  | keypadBreak (code : KeyCode)
  | keyMake (code : KeyCode)
  | keyBreak (code : KeyCode)
  deriving DecidableEq, Repr

/-- The operand of an instruction (30_encoding.md R59). -/
abbrev Instr.code : Instr → KeyCode
  | .ctrlMake k | .ctrlBreak k | .altMake k | .altBreak k | .shiftMake k | .shiftBreak k
  | .capsMake k | .capsBreak k | .numMake k | .numBreak k
  | .keypadMake k | .keypadBreak k | .keyMake k | .keyBreak k => k

/-- The release flag `R` of a class (30_encoding.md R57): true for a BREAK class. -/
abbrev Instr.released : Instr → Bool
  | .ctrlMake _ | .altMake _ | .shiftMake _ | .capsMake _ | .numMake _ | .keypadMake _ | .keyMake _ => false
  | .ctrlBreak _ | .altBreak _ | .shiftBreak _ | .capsBreak _ | .numBreak _ | .keypadBreak _ | .keyBreak _ => true

/-- The key class of an instruction's class (30_encoding.md R57). -/
abbrev Instr.keyClass : Instr → KeyClass
  | .ctrlMake _ | .ctrlBreak _ => .mod .ctrl
  | .altMake _ | .altBreak _ => .mod .alt
  | .shiftMake _ | .shiftBreak _ => .mod .shift
  | .capsMake _ | .capsBreak _ => .lock .caps
  | .numMake _ | .numBreak _ => .lock .num
  | .keypadMake _ | .keypadBreak _ => .keypad
  | .keyMake _ | .keyBreak _ => .key

end Sys2Proof
end

