-- ==== Sys2Proof/WellFormed.lean ====
section
/-! DEFINITION. Well-formedness of a parameter set (00_scope.md R7, R8) and of an instruction under one (30_encoding.md R57). -/

namespace Sys2Proof

/-- R8(a): the modifier and lock codes are pairwise disjoint. That they are subsets of 0..127 is the type of a key code. -/
abbrev Config.SetsDisjoint (c : Config) : Prop :=
  (∀ k ∈ c.ctrlCodes, k ∉ c.altCodes ∧ k ∉ c.shiftCodes ∧ k ≠ c.capsCode ∧ k ≠ c.numCode) ∧
  (∀ k ∈ c.altCodes, k ∉ c.shiftCodes ∧ k ≠ c.capsCode ∧ k ≠ c.numCode) ∧
  (∀ k ∈ c.shiftCodes, k ≠ c.capsCode ∧ k ≠ c.numCode) ∧
  c.capsCode ≠ c.numCode

/-- R8(b): `0 <= NUMPAD_LO <= NUMPAD_HI <= 127`. -/
abbrev Config.NumpadOrdered (c : Config) : Prop := c.numpadLo ≤ c.numpadHi

/-- R8(c): each ROM has exactly 128 entries. -/
abbrev Config.RomsFull (c : Config) : Prop :=
  c.primaryRom.length = keymapEntries ∧ c.secondaryRom.length = keymapEntries

/-- R7, and R8(d) again: `SHIFT_CODES` must contain 0x2A. R7 asks it without a condition. -/
abbrev Config.SourceShift (c : Config) : Prop := 0x2A ∈ c.shiftCodes

/-- R8(d): the table entries the source fixes, asked of a parameter set that claims to be the source's hardware
(20_memory.md R44). -/
abbrev Config.SourceEntries (c : Config) : Prop :=
  c.sourceHardware = true →
    c.primaryRom[0x1E]? = some 0x61 ∧ c.secondaryRom[0x1E]? = some 0x41

/-- Well-formedness of a parameter set (00_scope.md R7, R8). -/
abbrev Config.Wf (c : Config) : Prop :=
  c.SetsDisjoint ∧ c.NumpadOrdered ∧ c.RomsFull ∧ c.SourceShift ∧ c.SourceEntries

/-- "Regular" of 30_encoding.md R57: in none of the modifier and lock sets. -/
abbrev Config.Regular (c : Config) (k : KeyCode) : Prop :=
  k ∉ c.ctrlCodes ∧ k ∉ c.altCodes ∧ k ∉ c.shiftCodes ∧ k ≠ c.capsCode ∧ k ≠ c.numCode

/-- The numeric-keypad range (00_scope.md R12), bounds inclusive, compared unsigned. -/
abbrev Config.InKeypad (c : Config) (k : KeyCode) : Prop := c.numpadLo ≤ k ∧ k ≤ c.numpadHi

/-- The condition on the code that 30_encoding.md R57 gives each class. -/
abbrev KeyClass.Admits (c : Config) (k : KeyCode) : KeyClass → Prop
  | .mod .ctrl => k ∈ c.ctrlCodes
  | .mod .alt => k ∈ c.altCodes
  | .mod .shift => k ∈ c.shiftCodes
  | .lock .caps => k = c.capsCode
  | .lock .num => k = c.numCode
  | .keypad => c.Regular k ∧ c.InKeypad k
  | .key => c.Regular k ∧ ¬ c.InKeypad k

/-- An instruction is well formed under a parameter set when its code meets its class's condition (30_encoding.md R57). -/
abbrev Instr.Wf (c : Config) (i : Instr) : Prop := i.keyClass.Admits c i.code

end Sys2Proof
end

