-- ==== Sys2Proof/Decode.lean ====
section
/-! DEFINITION. From bytes to instructions (30_encoding.md R55-R58) and back. Every byte value decodes (R61); the only thing
rejected, by name, is a stream with no byte in it. -/

namespace Sys2Proof

/-- The release flag `raw[7]` (30_encoding.md R55). -/
def releaseFlag (raw : Byte) : Bool := raw.getLsbD 7

/-- The key code `raw[6:0]` (30_encoding.md R56). -/
def keyCode (raw : Byte) : KeyCode := raw.extractLsb' 0 7

/-- The classification order of 30_encoding.md R58. It reads the code alone. -/
def classify (c : Config) (k : KeyCode) : KeyClass :=
  if k ∈ c.ctrlCodes then .mod .ctrl
  else if k ∈ c.altCodes then .mod .alt
  else if k ∈ c.shiftCodes then .mod .shift
  else if k = c.capsCode then .lock .caps
  else if k = c.numCode then .lock .num
  else if c.numpadLo ≤ k ∧ k ≤ c.numpadHi then .keypad
  else .key

/-- The class of 30_encoding.md R57 for a key class, a release flag and the operand. -/
def assemble (kc : KeyClass) (released : Bool) (k : KeyCode) : Instr :=
  match kc with
  | .mod .ctrl => if released then .ctrlBreak k else .ctrlMake k
  | .mod .alt => if released then .altBreak k else .altMake k
  | .mod .shift => if released then .shiftBreak k else .shiftMake k
  | .lock .caps => if released then .capsBreak k else .capsMake k
  | .lock .num => if released then .numBreak k else .numMake k
  | .keypad => if released then .keypadBreak k else .keypadMake k
  | .key => if released then .keyBreak k else .keyMake k

/-- The class and operand of one byte: total (30_encoding.md R57, R61). -/
def decodeByte (c : Config) (raw : Byte) : Instr :=
  assemble (classify c (keyCode raw)) (releaseFlag raw) (keyCode raw)

/-- Why a byte stream holds no instruction. -/
inductive DecodeReject where
  /-- the stream is empty: raised by `decode` alone; safe, since no byte was read -/
  | noByte
  deriving DecidableEq, Repr

/-- The first instruction of a byte stream and the rest of it; every instruction is one byte (30_encoding.md R55, R64). -/
def decode (c : Config) : List Byte → Except DecodeReject (Instr × List Byte)
  | [] => .error .noByte
  | raw :: rest => .ok (decodeByte c raw, rest)

/-- The byte of an instruction: the release flag above the key code (30_encoding.md R55). -/
def encodeByte (i : Instr) : Byte := BitVec.ofBool i.released ++ i.code

/-- The bytes of an instruction. -/
def encode (i : Instr) : List Byte := [encodeByte i]

/-- The instruction whose bits are `w`, under the reference parameters; the length of every instruction is one byte, so a
longer word is none. -/
def decodeTableWord (nbits w : Nat) : Option Instr :=
  if nbits ≤ 8 ∧ w < 2 ^ nbits then
    match decode referenceConfig [BitVec.ofNat 8 w] with
    | .ok (i, []) => some i
    | _ => none
  else none

end Sys2Proof
end

