-- ==== Sys2Proof/Machine/State.lean ====
section
/-! DEFINITION. The state of KBDEC as plain data (10_state.md): the modifier register file, and what a step reads and shows at
the ports. -/

namespace Sys2Proof.Machine

/-- The modifier register file (10_state.md R20): the whole architectural state. -/
structure RegFile where
  /-- R21: a CTRL key is held -/
  ctrl : Bool
  /-- R22: an ALT key is held -/
  alt : Bool
  /-- R23: a SHIFT key is held -/
  shift : Bool
  /-- R24: CAPS LOCK -/
  caps : Bool
  /-- R25: NUM LOCK (the source's `numlock`) -/
  num : Bool
  /-- R26: the escape counter, 0, 1 or 2; the 2-bit value 3 cannot be written down (93_implementation_defined.md I8) -/
  esc : Fin 3
  deriving DecidableEq, Repr

/-- The reset values of 10_state.md R34: all clear. -/
def RegFile.reset : RegFile where
  ctrl := false
  alt := false
  shift := false
  caps := false
  num := false
  esc := 0

/-- `out_kind` (60_exceptions.md R111); the code 11 is never driven and has no constructor. -/
inductive OutKind where
  /-- 00 -/
  | none
  /-- 01 -/
  | char
  /-- 10 -/
  | shutdown
  deriving DecidableEq, Repr

/-- The output ports of one cycle (10_state.md R31). -/
structure Outputs where
  outValid : Bool
  outKind : OutKind
  outChar : Byte
  verbInc : Bool
  verbDec : Bool
  altDigit : Bool
  traceValid : Bool
  /-- 00 CTRL, 01 ALT, 10 SHIFT; 11 is never driven and has no constructor -/
  traceMod : Modifier
  traceValue : Bool
  modstat : Byte
  deriving DecidableEq, Repr

/-- Every output 0 (`trace_mod` 00 is the code of CTRL). -/
def Outputs.zero : Outputs where
  outValid := false
  outKind := .none
  outChar := 0x00
  verbInc := false
  verbDec := false
  altDigit := false
  traceValid := false
  traceMod := .ctrl
  traceValue := false
  modstat := 0x00

/-- The input ports of one cycle (10_state.md R31). -/
structure InputCycle where
  rst : Bool
  inValid : Bool
  inByte : Byte
  deriving DecidableEq, Repr

/-- The machine's state. `regs` is the architectural state (10_state.md R20). The other fields are the model's own: the
parameters, which no step changes (R32), and what the ports carry. -/
structure State where
  /-- the parameter set (00_scope.md R7), fixed for the machine's whole life (log entry 2) -/
  cfg : Config
  /-- the modifier register file (10_state.md R20) -/
  regs : RegFile
  /-- whether a reset cycle has been applied since power-up (70_reset_and_hazards.md R131, R133; log entry 4) -/
  resetDone : Bool
  /-- the cycles the host still presents, the next one first (log entry 1) -/
  inputs : List InputCycle
  /-- the output ports in the cycle just completed (log entry 3) -/
  out : Outputs
  deriving DecidableEq, Repr

/-- The machine right after reset (10_state.md R34, 70_reset_and_hazards.md R130), with the reference parameters
(DESIGN CHOICE: log entry 2), no cycle presented (log entry 1) and the outputs of a reset cycle (log entry 3). -/
def State.reset : State where
  cfg := referenceConfig
  regs := .reset
  resetDone := true
  inputs := []
  out := .zero

/-- The faults of KBDEC: there is none. "KBDEC raises no exception, trap or fault" (60_exceptions.md R110). -/
inductive Fault where
  deriving DecidableEq, Repr

/-- Why the model refuses a step. -/
inductive Refusal where
  /-- Raised by a refused arm of `exec` alone: an instruction that has no meaning yet. Safe. -/
  | notModelled (mnemonic : String)
  /-- Raised by `step` alone, in every cycle, when the parameter set fails a check of 00_scope.md R7, R8
  ("a model refuses a configuration that fails any check"). Safe. -/
  | illFormedConfig
  /-- Raised by `step` alone, in a cycle without `rst` before the first reset cycle (93_implementation_defined.md I5:
  "`refuse`: a model has no step before reset"). Safe. -/
  | beforeReset
  deriving DecidableEq, Repr

end Sys2Proof.Machine
end

