-- ==== Sys2Proof/Machine/Ops.lean ====
section
/-! DEFINITION. The shared operations over the register file and the output ports. There is no memory to write (20_memory.md R40)
and no exception to take or return from (60_exceptions.md R110, R119), so neither has an operation here. -/

namespace Sys2Proof.Machine

/-- The bit of a momentary modifier (10_state.md R21-R23). -/
def RegFile.held (r : RegFile) : Modifier → Bool
  | .ctrl => r.ctrl
  | .alt => r.alt
  | .shift => r.shift

/-- Write the bit of a momentary modifier. -/
def RegFile.setHeld (r : RegFile) (v : Bool) : Modifier → RegFile
  | .ctrl => { r with ctrl := v }
  | .alt => { r with alt := v }
  | .shift => { r with shift := v }

/-- Invert a latch (10_state.md R24, R25). -/
def RegFile.toggle (r : RegFile) : Lock → RegFile
  | .caps => { r with caps := !r.caps }
  | .num => { r with num := !r.num }

/-- `MODSTAT[7:0]` (10_state.md R27): bit 7 reads 0, then `esc`, `num`, `caps`, `shift`, `alt`, `ctrl`. -/
def modstat (r : RegFile) : Byte :=
  0#1 ++ BitVec.ofNat 2 r.esc.val ++ BitVec.ofBool r.num ++ BitVec.ofBool r.caps ++
    BitVec.ofBool r.shift ++ BitVec.ofBool r.alt ++ BitVec.ofBool r.ctrl

/-- The 2-bit code of `out_kind` (60_exceptions.md R111). -/
def OutKind.bits : OutKind → BitVec 2
  | .none => 0b00
  | .char => 0b01
  | .shutdown => 0b10

/-- The 2-bit code of `trace_mod` (40_modifier_keys.md R71). -/
def modifierBits : Modifier → BitVec 2
  | .ctrl => 0b00
  | .alt => 0b01
  | .shift => 0b10

/-- The outputs of a cycle that accepts no byte: all 0 but `modstat` (10_state.md R31). -/
def idleOutputs (r : RegFile) : Outputs := { Outputs.zero with modstat := modstat r }

/-- The outputs of an accepted byte that reports NONE and pulses nothing; `modstat` shows the register file before the step
(60_exceptions.md R112). -/
def noneOutputs (r : RegFile) : Outputs := { idleOutputs r with outValid := true }

/-- End a step: write the register file and drive the outputs, as one transition (20_memory.md R53). -/
def commit (r : RegFile) (o : Outputs) (s : State) : State := { s with regs := r, out := o }

end Sys2Proof.Machine
end

