-- ==== Sys2Proof/Machine/Operands.lean ====
section
/-! DEFINITION. How the operand of a regular key is used: the table select, the ROM read and the character classes the
post-lookup chain tests (20_memory.md, 41_regular_keys.md). -/

namespace Sys2Proof.Machine

/-- `T_ROM[n]` for any index; an index of 128 or more fails closed to the unmapped marker (20_memory.md R42). -/
def romReadIndex (c : Config) (t : Table) (n : Nat) : Byte :=
  if n < keymapEntries then (c.table t).getD n c.unmapped else c.unmapped

/-- `RomRead(T, a)` (20_memory.md R41). -/
def romRead (c : Config) (t : Table) (a : KeyCode) : Byte := romReadIndex c t a.toNat

/-- The select of a key outside the keypad range, `S.shift ^ S.caps` (41_regular_keys.md R87). -/
def selectKey (r : RegFile) : Table := if r.shift ^^ r.caps then .secondary else .primary

/-- The select of a keypad key, `S.num` (41_regular_keys.md R86). -/
def selectKeypad (r : RegFile) : Table := if r.num then .secondary else .primary

/-- An ASCII decimal digit, `0x30 <= c <= 0x39` (41_regular_keys.md R90). -/
def isDigit (ch : Byte) : Bool := decide (0x30#8 ≤ ch ∧ ch ≤ 0x39#8)

/-- `'+'` or `'='` (41_regular_keys.md R93). -/
def isIncrease (ch : Byte) : Bool := decide (ch = 0x2B#8 ∨ ch = 0x3D#8)

/-- `'-'` or `'_'` (41_regular_keys.md R94). -/
def isDecrease (ch : Byte) : Bool := decide (ch = 0x2D#8 ∨ ch = 0x5F#8)

end Sys2Proof.Machine
end

