-- ==== Sys2Proof/Machine/Flags.lean ====
section
/-! DEFINITION. Every computation of a register-file field and of an event: the modifier bits with their trace, the latches, and
the post-lookup chain with the escape counter (40_modifier_keys.md R71-R81, 41_regular_keys.md R89-R96). -/

namespace Sys2Proof.Machine

/-- The trace of writing `v` to modifier `m`: only on an edge (40_modifier_keys.md R71). -/
def traceOutputs (r : RegFile) (m : Modifier) (v : Bool) : Outputs :=
  if r.held m = v then noneOutputs r
  else { noneOutputs r with traceValid := true, traceMod := m, traceValue := v }

/-- The step of a momentary modifier byte with new value `v` (40_modifier_keys.md R72-R77). -/
def momentary (m : Modifier) (v : Bool) (s : State) : State :=
  commit (s.regs.setHeld v m) (traceOutputs s.regs m v) s

/-- The step of a lock make byte (40_modifier_keys.md R78, R80); no trace (R71). -/
def toggleLock (l : Lock) (s : State) : State :=
  commit (s.regs.toggle l) (noneOutputs s.regs) s

/-- The step of a byte that reports NONE and writes nothing (40_modifier_keys.md R79, R81, 41_regular_keys.md R99, R100). -/
def noEffect (s : State) : State := commit s.regs (noneOutputs s.regs) s

/-- The rule of 41_regular_keys.md at which a regular make byte's chain ends. -/
inductive ChainEnd where
  /-- R89 -/
  | unmapped
  /-- R90 -/
  | altDigit
  /-- R91 -/
  | escape
  /-- R93, after R92 -/
  | verbInc
  /-- R94, after R92 -/
  | verbDec
  /-- R95, after R92 -/
  | char
  deriving DecidableEq, Repr

/-- The priority of the chain (41_regular_keys.md R96), over the state before the step. -/
def chainEnd (c : Config) (r : RegFile) (ch : Byte) : ChainEnd :=
  if ch = c.unmapped then .unmapped
  else if r.alt && isDigit ch then .altDigit
  else if ch = c.escChar then .escape
  else if r.ctrl && isIncrease ch then .verbInc
  else if r.ctrl && isDecrease ch then .verbDec
  else .char

/-- `n = S.esc + 1`, and 0 in its place when it reaches `ESC_LIMIT` (41_regular_keys.md R91). -/
def escSucc (e : Fin 3) : Fin 3 := if h : e.val + 1 < escLimit then ⟨e.val + 1, h⟩ else 0

/-- Whether this escape press is the one that reaches `ESC_LIMIT` (41_regular_keys.md R91). -/
def escReaches (e : Fin 3) : Bool := e.val + 1 == escLimit

/-- The escape counter after the chain: kept at R89 and R90, counted at R91, cleared by R92. -/
def chainEsc (e : ChainEnd) (esc : Fin 3) : Fin 3 :=
  match e with
  | .unmapped | .altDigit => esc
  | .escape => escSucc esc
  | .verbInc | .verbDec | .char => 0

/-- The outputs of the chain (41_regular_keys.md R89-R95, 60_exceptions.md R111). -/
def chainOutputs (e : ChainEnd) (r : RegFile) (ch : Byte) : Outputs :=
  match e with
  | .unmapped => noneOutputs r
  | .altDigit => { noneOutputs r with altDigit := true, outChar := ch }
  | .escape => if escReaches r.esc then { noneOutputs r with outKind := .shutdown } else noneOutputs r
  | .verbInc => { noneOutputs r with verbInc := true }
  | .verbDec => { noneOutputs r with verbDec := true }
  | .char => { noneOutputs r with outKind := .char, outChar := ch }

/-- The step of a regular make byte with the selected table: lookup, then the chain (41_regular_keys.md R88-R96). -/
def regularMake (t : Table) (k : KeyCode) (s : State) : State :=
  let ch := romRead s.cfg t k
  let e := chainEnd s.cfg s.regs ch
  commit { s.regs with esc := chainEsc e s.regs.esc } (chainOutputs e s.regs ch) s

end Sys2Proof.Machine
end

