-- ==== Sys2Proof/Machine/LockKeys.lean ====
section
/-! DEFINITION. The meanings of the lock-key classes (40_modifier_keys.md R78-R81). -/

namespace Sys2Proof.Machine

/-- CAPS.MAKE (40_modifier_keys.md R78). -/
def execCapsMake (_code : KeyCode) (s : State) : Host.Outcome State Fault Refusal := .next (toggleLock .caps s)

/-- CAPS.BREAK (40_modifier_keys.md R79). -/
def execCapsBreak (_code : KeyCode) (s : State) : Host.Outcome State Fault Refusal := .next (noEffect s)

/-- NUM.MAKE (40_modifier_keys.md R80). -/
def execNumMake (_code : KeyCode) (s : State) : Host.Outcome State Fault Refusal := .next (toggleLock .num s)

/-- NUM.BREAK (40_modifier_keys.md R81). -/
def execNumBreak (_code : KeyCode) (s : State) : Host.Outcome State Fault Refusal := .next (noEffect s)

end Sys2Proof.Machine
end

