-- ==== Sys2Proof/Machine/ModifierKeys.lean ====
section
/-! DEFINITION. The meanings of the momentary modifier classes (40_modifier_keys.md R72-R77). No meaning depends on which code of
its set was pressed (R82). -/

namespace Sys2Proof.Machine

/-- CTRL.MAKE (40_modifier_keys.md R72). -/
def execCtrlMake (_code : KeyCode) (s : State) : Host.Outcome State Fault Refusal := .next (momentary .ctrl true s)

/-- CTRL.BREAK (40_modifier_keys.md R73). -/
def execCtrlBreak (_code : KeyCode) (s : State) : Host.Outcome State Fault Refusal := .next (momentary .ctrl false s)

/-- ALT.MAKE (40_modifier_keys.md R74). -/
def execAltMake (_code : KeyCode) (s : State) : Host.Outcome State Fault Refusal := .next (momentary .alt true s)

/-- ALT.BREAK (40_modifier_keys.md R75). -/
def execAltBreak (_code : KeyCode) (s : State) : Host.Outcome State Fault Refusal := .next (momentary .alt false s)

/-- SHIFT.MAKE (40_modifier_keys.md R76). -/
def execShiftMake (_code : KeyCode) (s : State) : Host.Outcome State Fault Refusal := .next (momentary .shift true s)

/-- SHIFT.BREAK (40_modifier_keys.md R77). -/
def execShiftBreak (_code : KeyCode) (s : State) : Host.Outcome State Fault Refusal := .next (momentary .shift false s)

end Sys2Proof.Machine
end

