-- ==== Sys2Proof/Machine/RegularKeys.lean ====
section
/-! DEFINITION. The meanings of the regular-key classes (41_regular_keys.md R97-R100). -/

namespace Sys2Proof.Machine

/-- KEY.MAKE (41_regular_keys.md R97). -/
def execKeyMake (code : KeyCode) (s : State) : Host.Outcome State Fault Refusal :=
  .next (regularMake (selectKey s.regs) code s)

/-- KEYPAD.MAKE (41_regular_keys.md R98). -/
def execKeypadMake (code : KeyCode) (s : State) : Host.Outcome State Fault Refusal :=
  .next (regularMake (selectKeypad s.regs) code s)

/-- KEY.BREAK (41_regular_keys.md R99). -/
def execKeyBreak (_code : KeyCode) (s : State) : Host.Outcome State Fault Refusal := .next (noEffect s)

/-- KEYPAD.BREAK (41_regular_keys.md R100). -/
def execKeypadBreak (_code : KeyCode) (s : State) : Host.Outcome State Fault Refusal := .next (noEffect s)

end Sys2Proof.Machine
end

