-- ==== Sys2Proof/Machine/Dispatch.lean ====
section
/-! DEFINITION. The meaning of each instruction, one arm per constructor. -/

namespace Sys2Proof.Machine

def exec (i : Instr) (s : State) : Host.Outcome State Fault Refusal :=
  match i with
  | .ctrlMake code => Sys2Proof.Machine.execCtrlMake code s
  | .ctrlBreak code => Sys2Proof.Machine.execCtrlBreak code s
  | .altMake code => Sys2Proof.Machine.execAltMake code s
  | .altBreak code => Sys2Proof.Machine.execAltBreak code s
  | .shiftMake code => Sys2Proof.Machine.execShiftMake code s
  | .shiftBreak code => Sys2Proof.Machine.execShiftBreak code s
  | .capsMake code => Sys2Proof.Machine.execCapsMake code s
  | .capsBreak code => Sys2Proof.Machine.execCapsBreak code s
  | .numMake code => Sys2Proof.Machine.execNumMake code s
  | .numBreak code => Sys2Proof.Machine.execNumBreak code s
  | .keypadMake code => Sys2Proof.Machine.execKeypadMake code s
  | .keypadBreak code => Sys2Proof.Machine.execKeypadBreak code s
  | .keyMake code => Sys2Proof.Machine.execKeyMake code s
  | .keyBreak code => Sys2Proof.Machine.execKeyBreak code s

end Sys2Proof.Machine
end

