-- ==== Sys2Proof/Machine/Cycle.lean ====
section
/-! DEFINITION. One clock cycle (10_state.md R31, 60_exceptions.md R112, 70_reset_and_hazards.md R130, R131): a reset cycle, a cycle
that accepts a byte, or an idle cycle. -/

namespace Sys2Proof.Machine

/-- A cycle in which the host presents the byte `raw` (60_exceptions.md R120). -/
def InputCycle.byte (raw : Byte) : InputCycle where
  rst := false
  inValid := true
  inByte := raw

/-- The cycle at the ports now: the next one presented, or an idle one when the host presents none (log entry 1). -/
def currentCycle (s : State) : InputCycle :=
  match s.inputs with
  | [] => { rst := false, inValid := false, inByte := 0x00 }
  | cycle :: _ => cycle

/-- Move past the cycle at the ports. -/
def takeCycle (s : State) : State := { s with inputs := s.inputs.tail }

/-- A reset cycle: the register file is set to its reset values and every output but `modstat` is 0; `modstat` still shows the
register file before the edge (70_reset_and_hazards.md R130, R131). -/
def resetCycle (s : State) : State := { commit .reset (idleOutputs s.regs) s with resetDone := true }

/-- A cycle with neither `rst` nor `in_valid`: the state does not change and every output but `modstat` is 0
(60_exceptions.md R112). -/
def idleCycle (s : State) : State := commit s.regs (idleOutputs s.regs) s

/-- One clock cycle; `rst` wins over a byte in the same cycle (70_reset_and_hazards.md R130), and without `rst` there is no step
before the first reset cycle (93_implementation_defined.md I5). -/
def runCycle (cycle : InputCycle) (s : State) : Host.Outcome State Fault Refusal :=
  if cycle.rst then .next (resetCycle s)
  else if !s.resetDone then .refused .beforeReset
  else if cycle.inValid then exec (decodeByte s.cfg cycle.inByte) s
  else .next (idleCycle s)

/-- The host presents the byte `raw` next. -/
def State.present (s : State) (raw : Byte) : State := { s with inputs := .byte raw :: s.inputs }

end Sys2Proof.Machine
end

