-- ==== Sys2Proof/Machine/Step.lean ====
section
/-! DEFINITION. One step of the machine: one clock cycle, under a well-formed parameter set (00_scope.md R8, R11). -/

namespace Sys2Proof.Machine

/-- One clock cycle of a well-formed KBDEC (00_scope.md R8, R11; 70_reset_and_hazards.md R138). -/
def step (s : State) : Host.Outcome State Fault Refusal :=
  if s.cfg.Wf then runCycle (currentCycle s) (takeCycle s) else .refused .illFormedConfig

/-- The host presents the one-byte instruction whose bits are `w` in the very next cycle (log entry 1). -/
def State.withFetchWord (s : State) (nbits w : Nat) : State := s.present (BitVec.ofNat 8 (w % 2 ^ nbits))

end Sys2Proof.Machine
end

