-- ==== Sys2Proof/Machine/ByteProgram.lean ====
section
/-! DEFINITION. Byte programs (30_encoding.md R65, R66) and their run, one step a byte (00_scope.md R11). -/

namespace Sys2Proof.Machine

/-- A statement of a byte program: the three of 30_encoding.md R65, then the four pseudo-statements of R66. -/
inductive Statement where
  | byte (raw : Byte)
  | make (k : KeyCode)
  | brk (k : KeyCode)
  | tap (k : KeyCode)
  | shifted (k : KeyCode)
  | chord (m k : KeyCode)
  | repeated (n : Nat) (k : KeyCode)
  deriving DecidableEq, Repr

/-- The make byte of a key code (30_encoding.md R56). -/
def makeByte (k : KeyCode) : Byte := 0#1 ++ k

/-- The break byte of a key code, `k | 0x80` (30_encoding.md R56). -/
def breakByte (k : KeyCode) : Byte := 1#1 ++ k

/-- The key names of byte programs (30_encoding.md R65), but for letters and digits. -/
inductive KeyName where
  | esc
  | shiftL
  | shiftR
  | ctrl
  | alt
  | caps
  | num
  | kp7
  | kp0
  | kpPlus
  | kpMinus
  | equals
  | minus
  | f1
  deriving DecidableEq, Repr

/-- The key code a name stands for (30_encoding.md R65); all but `SHIFT_L` resolve through the reference codes. -/
def keyNameCode : KeyName → KeyCode
  | .esc => 0x01
  | .shiftL => 0x2A
  | .shiftR => 0x36
  | .ctrl => 0x1D
  | .alt => 0x38
  | .caps => 0x3A
  | .num => 0x45
  | .kp7 => 0x47
  | .kp0 => 0x52
  | .kpPlus => 0x4E
  | .kpMinus => 0x4A
  | .equals => 0x0D
  | .minus => 0x0C
  | .f1 => 0x3B

/-- The key code a letter or digit names: its key in the reference table (30_encoding.md R65, 20_memory.md R45). -/
def characterKeyCode (ch : Byte) : Option KeyCode :=
  (referencePrimaryRom.findIdx? (· = ch)).map (BitVec.ofNat 7)

/-- The bytes a statement stands for (30_encoding.md R65, R66). -/
def Statement.bytes : Statement → List Byte
  | .byte raw => [raw]
  | .make k => [makeByte k]
  | .brk k => [breakByte k]
  | .tap k => [makeByte k, breakByte k]
  | .shifted k => [makeByte (keyNameCode .shiftL), makeByte k, breakByte (keyNameCode .shiftL), breakByte k]
  | .chord m k => [makeByte m, makeByte k, breakByte k, breakByte m]
  | .repeated n k => List.replicate n (makeByte k)

/-- The byte stream of a program. -/
def programBytes (p : List Statement) : List Byte := p.flatMap Statement.bytes

/-- Present the bytes one after another, one step each; the state after the last and the outputs of each step
(20_memory.md R51). -/
def runBytes : List Byte → State → Host.Outcome (State × List Outputs) Fault Refusal
  | [], s => .next (s, [])
  | raw :: rest, s =>
    match step (s.present raw) with
    | .next t =>
      match runBytes rest t with
      | .next (u, outs) => .next (u, t.out :: outs)
      | .fault f => .fault f
      | .refused r => .refused r
    | .fault f => .fault f
    | .refused r => .refused r

end Sys2Proof.Machine
end

