-- ==== Sys2Proof/Machine/Driver.lean ====
section
/-! DEFINITION. The host around KBDEC, outside the hardware (00_scope.md R6): the diagnostics sink (60_exceptions.md R113, R115)
and the Polling Driver (R120-R123). Nothing of it stands in `State` (log entry 8). -/

namespace Sys2Proof.Machine

/-- The sink's open parameters, `LOG_LEVEL_MAX` and `LOG_LEVEL_RESET` (92_eei_decisions.md D12). -/
structure SinkParams where
  levelMax : Nat
  levelReset : Nat
  deriving DecidableEq, Repr

/-- The diagnostics sink: the verbosity level, and the transitions forwarded to it, oldest first (60_exceptions.md R113, R115). -/
structure Sink where
  level : Nat
  traces : List (Modifier × Bool)
  deriving DecidableEq, Repr

/-- The sink at its start. -/
def Sink.reset (p : SinkParams) : Sink where
  level := p.levelReset
  traces := []

/-- What the sink does with the outputs of one step (60_exceptions.md R113, R115). -/
def Sink.accept (p : SinkParams) (o : Outputs) (k : Sink) : Sink where
  level :=
    if o.verbInc then min (k.level + 1) p.levelMax
    else if o.verbDec then k.level - 1
    else k.level
  traces := if o.traceValid then k.traces ++ [(o.traceMod, o.traceValue)] else k.traces

/-- KBDEC with its sink, and whether `request_shutdown()` has ended the run (60_exceptions.md R123). -/
structure KbdSystem where
  machine : State
  sink : Sink
  terminated : Bool
  deriving DecidableEq, Repr

/-- The system at its start. -/
def KbdSystem.reset (p : SinkParams) : KbdSystem where
  machine := .reset
  sink := .reset p
  terminated := false

/-- The character `poll` returns for the outputs of a step (60_exceptions.md R121). -/
def polledChar (o : Outputs) : Option Byte := if o.outKind = .char then some o.outChar else none

/-- The system after a step of KBDEC that ended in `t`: the sink takes the pulses, and SHUTDOWN ends the run. -/
def KbdSystem.afterStep (p : SinkParams) (y : KbdSystem) (t : State) : KbdSystem where
  machine := t
  sink := y.sink.accept p t.out
  terminated := decide (t.out.outKind = .shutdown)

/-- `poll()` (60_exceptions.md R121): `ready` is what the Port Reader answers, a byte or nothing. After the run has ended no byte
is presented (R123). -/
def KbdSystem.poll (p : SinkParams) (ready : Option Byte) (y : KbdSystem) :
    Host.Outcome (KbdSystem × Option Byte) Fault Refusal :=
  if y.terminated then .next (y, none)
  else
    match ready with
    | none => .next (y, none)
    | some raw =>
      match step (y.machine.present raw) with
      | .next t => .next (y.afterStep p t, polledChar t.out)
      | .fault f => .fault f
      | .refused r => .refused r

/-- How a call of `get_blocking()` stands after the Port Reader's answers so far (60_exceptions.md R122). -/
inductive Blocking where
  /-- it returned a character -/
  | char (c : Byte)
  /-- SHUTDOWN ended the process -/
  | terminated
  /-- it still polls -/
  | waiting
  deriving DecidableEq, Repr

/-- `get_blocking()` (60_exceptions.md R122) over the Port Reader's answers, first one first: poll until a character is produced or
the run ends. The last part of the answer is what the Port Reader has not been asked for yet. -/
def KbdSystem.getBlocking (p : SinkParams) :
    List (Option Byte) → KbdSystem → Host.Outcome (KbdSystem × Blocking × List (Option Byte)) Fault Refusal
  | [], y => .next (y, if y.terminated then .terminated else .waiting, [])
  | ready :: rest, y =>
    if y.terminated then .next (y, .terminated, ready :: rest)
    else
      match y.poll p ready with
      | .next (z, some c) => .next (z, .char c, rest)
      | .next (z, none) => KbdSystem.getBlocking p rest z
      | .fault f => .fault f
      | .refused r => .refused r

end Sys2Proof.Machine
end

