-- ==== Sys2Proof/Machine/Listing.lean ====
section
/-! DEFINITION. The whole decode function `decode(S, raw)` in one listing (41_regular_keys.md R101, 00_scope.md R11), written from the
listing alone: it shares no classification, lookup, chain or trace with the meanings, so that their agreement says something. -/

namespace Sys2Proof.Machine

/-- The outputs a listing's step starts from: nothing assigned yet, the ports' `out_valid` and pre-step `modstat` driven. -/
def listingOut (S : RegFile) : Outputs where
  outValid := true
  outKind := .none
  outChar := 0x00
  verbInc := false
  verbDec := false
  altDigit := false
  traceValid := false
  traceMod := .ctrl
  traceValue := false
  modstat := modstat S

/-- The MOD(m) case: the value before, the value written and the trace. -/
def listingTrace (out : Outputs) (before v : Bool) (m : Modifier) : Outputs :=
  if before != v then { out with traceValid := true, traceMod := m, traceValue := v } else out

/-- The REGULAR case of a make byte once `c` is looked up. -/
def listingChain (cfg : Config) (S : RegFile) (c : Byte) (out : Outputs) : RegFile × Outputs :=
  if c = cfg.unmapped then (S, out)
  else if S.alt = true ∧ 0x30 ≤ c.toNat ∧ c.toNat ≤ 0x39 then (S, { out with altDigit := true, outChar := c })
  else if c = cfg.escChar then
    match S.esc with
    | 0 => ({ S with esc := 1 }, out)
    | 1 => ({ S with esc := 2 }, out)
    | 2 => ({ S with esc := 0 }, { out with outKind := .shutdown })
  else if S.ctrl = true ∧ (c.toNat = 0x2B ∨ c.toNat = 0x3D) then ({ S with esc := 0 }, { out with verbInc := true })
  else if S.ctrl = true ∧ (c.toNat = 0x2D ∨ c.toNat = 0x5F) then ({ S with esc := 0 }, { out with verbDec := true })
  else ({ S with esc := 0 }, { out with outKind := .char, outChar := c })

/-- `decode(S, raw) = (S', out)` (41_regular_keys.md R101), with the source's own split of the byte,
`pressed = (raw & 0x80) == 0` and `code = raw & 0x7F` (30_encoding.md R56). -/
def decodeListing (cfg : Config) (S : RegFile) (raw : Byte) : RegFile × Outputs :=
  let out := listingOut S
  let pressed : Bool := raw &&& 0x80 == 0
  let code : KeyCode := BitVec.setWidth 7 (raw &&& 0x7F)
  if code ∈ cfg.ctrlCodes then ({ S with ctrl := pressed }, listingTrace out S.ctrl pressed .ctrl)
  else if code ∈ cfg.altCodes then ({ S with alt := pressed }, listingTrace out S.alt pressed .alt)
  else if code ∈ cfg.shiftCodes then ({ S with shift := pressed }, listingTrace out S.shift pressed .shift)
  else if code = cfg.capsCode then (if pressed then { S with caps := !S.caps } else S, out)
  else if code = cfg.numCode then (if pressed then { S with num := !S.num } else S, out)
  else if !pressed then (S, out)
  else
    let sel : Bool :=
      if cfg.numpadLo.toNat ≤ code.toNat ∧ code.toNat ≤ cfg.numpadHi.toNat then S.num else S.shift != S.caps
    let rom := if sel then cfg.secondaryRom else cfg.primaryRom
    listingChain cfg S (rom.getD code.toNat cfg.unmapped) out

end Sys2Proof.Machine
end

