-- ==== Sys2Proof/Safety.lean ====
section
/-! DEFINITION. What a legal state is (the invariant every step keeps), and how a run of bytes bears on the escape counter. -/

namespace Sys2Proof.Machine

/-- How many of `alt_digit`, `verb_inc`, `verb_dec` and `trace_valid` are 1. -/
def Outputs.pulses (o : Outputs) : Nat :=
  o.altDigit.toNat + o.verbInc.toNat + o.verbDec.toNat + o.traceValid.toNat

/-- The outputs of a cycle as 10_state.md R31 and 60_exceptions.md R111, R118 allow them. -/
structure Outputs.Legal (c : Config) (o : Outputs) : Prop where
  /-- R31: with `out_valid` = 0 every output but `modstat` is 0 -/
  quiet : o.outValid = false → o = { Outputs.zero with modstat := o.modstat }
  /-- R118: a pulse occurs only with NONE, and no two occur together -/
  pulse : o.pulses ≤ 1 ∧ (o.outKind ≠ .none → o.pulses = 0)
  /-- R111: a CHAR event never carries the unmapped marker -/
  mapped : o.outKind = .char → o.outChar ≠ c.unmapped
  /-- R111: outside CHAR, `out_char` is 0x00 unless the digit hook drives it, and then it is a digit -/
  char : o.outKind ≠ .char → if o.altDigit then 0x30#8 ≤ o.outChar ∧ o.outChar ≤ 0x39#8 else o.outChar = 0x00
  /-- R31: without a trace `trace_mod` and `trace_value` are 0 -/
  trace : o.traceValid = false → o.traceMod = .ctrl ∧ o.traceValue = false
  /-- R27: bit 7 of `modstat` reads 0 and its counter field never reads 3 -/
  status : o.modstat.getLsbD 7 = false ∧ o.modstat.extractLsb' 5 2 ≠ 3#2

/-- A legal state: a well-formed parameter set, a reset already applied, and outputs as the spec allows them. -/
structure State.Inv (s : State) : Prop where
  cfg : s.cfg.Wf
  reset : s.resetDone = true
  out : s.out.Legal s.cfg

/-- How one byte bears on the escape counter: kept, counted or cleared. -/
inductive EscEffect where
  | keep
  | count
  | clear
  deriving DecidableEq, Repr

/-- The effect of the rule at which the chain ends (41_regular_keys.md R89-R95). -/
def ChainEnd.escEffect : ChainEnd → EscEffect
  | .unmapped | .altDigit => .keep
  | .escape => .count
  | .verbInc | .verbDec | .char => .clear

/-- The effect of one byte on the escape counter (41_regular_keys.md R104): a byte that is no regular make byte keeps it
(40_modifier_keys.md R70(c), 41_regular_keys.md R99, R100). -/
def escEffect (c : Config) (r : RegFile) (raw : Byte) : EscEffect :=
  match decodeByte c raw with
  | .keyMake k => (chainEnd c r (romRead c (selectKey r) k)).escEffect
  | .keypadMake k => (chainEnd c r (romRead c (selectKeypad r) k)).escEffect
  | .ctrlMake _ | .ctrlBreak _ | .altMake _ | .altBreak _ | .shiftMake _ | .shiftBreak _
  | .capsMake _ | .capsBreak _ | .numMake _ | .numBreak _ | .keypadBreak _ | .keyBreak _ => .keep

/-- The escape presses in a run of bytes from a register file, or nothing if some byte of the run clears the counter. The register
file moves along the run as the listing of 41_regular_keys.md R101 says. -/
def escPresses (c : Config) : RegFile → List Byte → Option Nat
  | _, [] => some 0
  | r, raw :: rest =>
    match escEffect c r raw with
    | .keep => escPresses c (decodeListing c r raw).1 rest
    | .count => (escPresses c (decodeListing c r raw).1 rest).map (· + 1)
    | .clear => none

end Sys2Proof.Machine
end

