-- ==== Sys2Proof/Certificates/Slice0/Obligations.lean ====
section
/-! DEFINITION. The statements for the provers, with the few words they share. Each `Obligations.<Name>` is listed in
OBLIGATIONS.json with the rule it formalises. -/

open Sys2Proof Sys2Proof.Machine

namespace Sys2Proof.Machine

/-- The outputs of an accepted byte that reports NONE and pulses nothing: `out_valid` = 1, `modstat` the register file before the
step, every other output 0 (10_state.md R31, 60_exceptions.md R112). -/
def quiet (r : RegFile) : Outputs := { Outputs.zero with outValid := true, modstat := modstat r }

/-- `quiet` with the transition trace of modifier `m` going to `v` (40_modifier_keys.md R71). -/
def traced (r : RegFile) (m : Modifier) (v : Bool) : Outputs :=
  { quiet r with traceValid := true, traceMod := m, traceValue := v }

/-- The ROM entry of code `k` in the table a select signal picks (41_regular_keys.md R88). -/
def entry (c : Config) (sel : Bool) (k : KeyCode) : Byte :=
  (if sel then c.secondaryRom else c.primaryRom).getD k.toNat c.unmapped

/-- The character a regular make byte looks up (41_regular_keys.md R86-R88); no other class looks one up. -/
def lookedUp (s : State) : Instr → Option Byte
  | .keyMake k => some (entry s.cfg (s.regs.shift ^^ s.regs.caps) k)
  | .keypadMake k => some (entry s.cfg s.regs.num k)
  | .ctrlMake _ | .ctrlBreak _ | .altMake _ | .altBreak _ | .shiftMake _ | .shiftBreak _
  | .capsMake _ | .capsBreak _ | .numMake _ | .numBreak _ | .keypadBreak _ | .keyBreak _ => none

/-- The case of rule R90: ALT is held and the character is a decimal digit (41_regular_keys.md R90). -/
def digitCase (s : State) (c : Byte) : Prop := s.regs.alt = true ∧ 0x30#8 ≤ c ∧ c ≤ 0x39#8

/-- The state after a regular make byte that writes `esc` and drives `o`: nothing else changes. -/
def endsWith (s : State) (esc : Fin 3) (o : Outputs) : Host.Outcome State Fault Refusal :=
  .next { s with regs := { s.regs with esc := esc }, out := o }

/-- What 41_regular_keys.md R89-R95, in the order of R96, give for the looked-up character `c`: one clause a rule, R91 two. -/
structure ChainResult (s : State) (c : Byte) (o : Host.Outcome State Fault Refusal) : Prop where
  r89 : c = s.cfg.unmapped → o = endsWith s s.regs.esc (quiet s.regs)
  r90 : c ≠ s.cfg.unmapped → digitCase s c →
    o = endsWith s s.regs.esc { quiet s.regs with altDigit := true, outChar := c }
  r91 : c ≠ s.cfg.unmapped → ¬ digitCase s c → c = s.cfg.escChar →
    ∀ n : Fin 3, n.val = s.regs.esc.val + 1 → o = endsWith s n (quiet s.regs)
  r91_limit : c ≠ s.cfg.unmapped → ¬ digitCase s c → c = s.cfg.escChar → s.regs.esc.val + 1 = 3 →
    o = endsWith s 0 { quiet s.regs with outKind := .shutdown }
  r93 : c ≠ s.cfg.unmapped → ¬ digitCase s c → c ≠ s.cfg.escChar → s.regs.ctrl = true → c = 0x2B#8 ∨ c = 0x3D#8 →
    o = endsWith s 0 { quiet s.regs with verbInc := true }
  r94 : c ≠ s.cfg.unmapped → ¬ digitCase s c → c ≠ s.cfg.escChar → s.regs.ctrl = true → c = 0x2D#8 ∨ c = 0x5F#8 →
    o = endsWith s 0 { quiet s.regs with verbDec := true }
  r95 : c ≠ s.cfg.unmapped → ¬ digitCase s c → c ≠ s.cfg.escChar →
    ¬ (s.regs.ctrl = true ∧ (c = 0x2B#8 ∨ c = 0x3D#8 ∨ c = 0x2D#8 ∨ c = 0x5F#8)) →
    o = endsWith s 0 { quiet s.regs with outKind := .char, outChar := c }

/-- The set of key codes of a momentary modifier (00_scope.md R7). -/
def modCodes (c : Config) : Modifier → List KeyCode
  | .ctrl => c.ctrlCodes
  | .alt => c.altCodes
  | .shift => c.shiftCodes

/-- The key code of a lock key (00_scope.md R7). -/
def lockCode (c : Config) : Lock → KeyCode
  | .caps => c.capsCode
  | .num => c.numCode

/-- The same parameters over other tables. -/
def withRoms (c : Config) (rom rom' : List Byte) : Config := { c with primaryRom := rom, secondaryRom := rom' }

/-- The latch of a lock key (10_state.md R24, R25). -/
def latch (r : RegFile) : Lock → Bool
  | .caps => r.caps
  | .num => r.num

/-- A machine that can accept a byte: a well-formed parameter set, and a reset applied. -/
def Ready (s : State) : Prop := s.cfg.Wf ∧ s.resetDone = true

/-- The class of every byte under the reference key codes, row by row of the table of 30_encoding.md R60. -/
def tabulated (raw : Byte) : Instr :=
  let k : KeyCode := raw.setWidth 7
  if raw = 0x1D then .ctrlMake k
  else if raw = 0x9D then .ctrlBreak k
  else if raw = 0x38 then .altMake k
  else if raw = 0xB8 then .altBreak k
  else if raw = 0x2A ∨ raw = 0x36 then .shiftMake k
  else if raw = 0xAA ∨ raw = 0xB6 then .shiftBreak k
  else if raw = 0x3A then .capsMake k
  else if raw = 0xBA then .capsBreak k
  else if raw = 0x45 then .numMake k
  else if raw = 0xC5 then .numBreak k
  else if 0x47#8 ≤ raw ∧ raw ≤ 0x53#8 then .keypadMake k
  else if 0xC7#8 ≤ raw ∧ raw ≤ 0xD3#8 then .keypadBreak k
  else if raw ≤ 0x7F#8 then .keyMake k
  else .keyBreak k

end Sys2Proof.Machine

/-! ## Input encoding (30_encoding.md) -/

/-- R56: `pressed = ~raw[7]`, `code = raw[6:0]`, used unmodified; the make byte of k is k, its break byte is `k | 0x80`. -/
def Obligations.BitSevenIsTheReleaseFlagAndTheRestIsTheCode : Prop :=
  (∀ (c : Config) (raw : Byte),
    ((decodeByte c raw).released = false ↔ raw &&& 0x80 = 0) ∧
    (decodeByte c raw).code.toNat = (raw &&& 0x7F).toNat ∧
    (decodeByte c raw).keyClass = classify c (decodeByte c raw).code) ∧
  (∀ (c : Config) (k : KeyCode),
    makeByte k = k.setWidth 8 ∧ breakByte k = k.setWidth 8 ||| 0x80 ∧
    (decodeByte c (makeByte k)).code = k ∧ (decodeByte c (breakByte k)).code = k)

/-- R57, "The 14 classes partition the 256 byte values", which the spec marks as its own inference from R58. -/
def Obligations.EveryByteIsInExactlyOneClass : Prop :=
  ∀ c : Config, c.Wf → ∀ raw : Byte, ∃ i : Instr, i.Wf c ∧ encodeByte i = raw ∧
    ∀ j : Instr, j.Wf c → encodeByte j = raw → j = i

/-- Decoding an encoded well-formed instruction, with any bytes after it, gives it back and leaves those bytes. -/
def Obligations.DecodeInvertsEncode : Prop :=
  ∀ c : Config, c.Wf → ∀ i : Instr, i.Wf c → ∀ rest : List Byte, decode c (encode i ++ rest) = .ok (i, rest)

/-- R61: no byte value is illegal and none traps. The parameter set need not be well formed. -/
def Obligations.NoByteIsIllegalAndNoneTraps : Prop :=
  ∀ (c : Config) (raw : Byte), (decodeByte c raw).Wf c ∧ encodeByte (decodeByte c raw) = raw ∧
    ∀ s : State, ∃ t : State, exec (decodeByte c raw) s = .next t ∧ t.out.outValid = true

/-- R58: the classification takes the first test that holds, and reads the code alone. The last clause, that a parameter set
whose sets overlap is refused in every cycle, reset and idle cycles too, is the model's choice (log entry 13); R58 and R8 say only
that a model refuses it. -/
def Obligations.ClassificationTakesTheFirstTestThatHolds : Prop :=
  (∀ (c : Config) (k : KeyCode),
    (k ∈ c.ctrlCodes → classify c k = .mod .ctrl) ∧
    (k ∉ c.ctrlCodes → k ∈ c.altCodes → classify c k = .mod .alt) ∧
    (k ∉ c.ctrlCodes → k ∉ c.altCodes → k ∈ c.shiftCodes → classify c k = .mod .shift) ∧
    (k ∉ c.ctrlCodes → k ∉ c.altCodes → k ∉ c.shiftCodes → k = c.capsCode → classify c k = .lock .caps) ∧
    (k ∉ c.ctrlCodes → k ∉ c.altCodes → k ∉ c.shiftCodes → k ≠ c.capsCode → k = c.numCode →
      classify c k = .lock .num) ∧
    (c.Regular k → c.numpadLo.toNat ≤ k.toNat ∧ k.toNat ≤ c.numpadHi.toNat → classify c k = .keypad) ∧
    (c.Regular k → ¬ (c.numpadLo.toNat ≤ k.toNat ∧ k.toNat ≤ c.numpadHi.toNat) → classify c k = .key)) ∧
  (∀ (c : Config) (raw raw' : Byte), raw &&& 0x7F = raw' &&& 0x7F →
    (decodeByte c raw).keyClass = (decodeByte c raw').keyClass) ∧
  (∀ s : State, ¬ s.cfg.SetsDisjoint → step s = .refused .illFormedConfig)

/-- R60: the whole table of byte values under the reference key codes. -/
def Obligations.ReferenceBytesDecodeAsTabulated : Prop :=
  referenceConfig.ctrlCodes = [0x1D] ∧ referenceConfig.altCodes = [0x38] ∧ referenceConfig.shiftCodes = [0x2A, 0x36] ∧
  referenceConfig.capsCode = 0x3A ∧ referenceConfig.numCode = 0x45 ∧
  referenceConfig.numpadLo = 0x47 ∧ referenceConfig.numpadHi = 0x53 ∧
  ∀ raw : Byte, decodeByte referenceConfig raw = tabulated raw

/-- R64: prefix and controller bytes decode like any other byte, and `0xE0, k` acts as the plain key k. -/
def Obligations.PrefixAndControllerBytesAreOrdinaryBytes : Prop :=
  (∀ raw ∈ [0xE0#8, 0xE1#8, 0xFA#8, 0xFE#8, 0xFF#8], decodeByte referenceConfig raw = .keyBreak (raw.setWidth 7)) ∧
  (∀ (k : KeyCode) (s : State), exec (.keyBreak k) s = .next { s with out := quiet s.regs }) ∧
  decodeByte referenceConfig 0x00 = .keyMake 0x00 ∧
  (∀ s : State, entry s.cfg (s.regs.shift ^^ s.regs.caps) 0x00 = s.cfg.unmapped →
    exec (.keyMake 0x00) s = .next { s with out := quiet s.regs }) ∧
  decodeByte referenceConfig 0xAA = .shiftBreak 0x2A ∧
  (∀ (s : State) (raw : Byte), Ready s → s.cfg.Regular 0x60 → ∃ (t : State) (o : Outputs),
    runBytes [raw] s = .next (t, [o]) ∧ runBytes [0xE0, raw] s = .next (t, [quiet s.regs, o]))

/-! ## Parameters (00_scope.md) -/

/-- R8, with R7's "must contain 0x2A": the checks, and that the model refuses a parameter set exactly when it fails one of them; a
modifier code inside the keypad range is a modifier. The model's choices in it: the field `sourceHardware` stands for R8(d)'s claim,
and a set without it is asked for no table entry (log entry 5); the refusal comes in every cycle, reset and idle cycles too
(log entry 13). -/
def Obligations.OnlyAParameterSetThatFailsACheckIsRefused : Prop :=
  (∀ s : State, step s = .refused .illFormedConfig ↔
    ¬ ([s.cfg.ctrlCodes, s.cfg.altCodes, s.cfg.shiftCodes, [s.cfg.capsCode], [s.cfg.numCode]].Pairwise List.Disjoint ∧
      s.cfg.numpadLo.toNat ≤ s.cfg.numpadHi.toNat ∧
      (s.cfg.primaryRom.length = 128 ∧ s.cfg.secondaryRom.length = 128) ∧
      0x2A#7 ∈ s.cfg.shiftCodes ∧
      (s.cfg.sourceHardware = true →
        entry s.cfg false 0x1E = 0x61 ∧ entry s.cfg true 0x1E = 0x41))) ∧
  (∀ c : Config, c.Wf → ∀ (m : Modifier), ∀ k ∈ modCodes c m, c.InKeypad k → classify c k = .mod m)

/-- The reference parameter set passes every check of R8 and meets R44(a): the model's own choice of parameters at reset
(log entry 2) is a machine the spec allows. -/
def Obligations.ReferenceParametersAreWellFormed : Prop :=
  referenceConfig.Wf ∧ entry referenceConfig false 0x1E = 0x61 ∧ entry referenceConfig true 0x1E = 0x41 ∧
  State.reset.cfg = referenceConfig

/-! ## Modifier and lock keys (40_modifier_keys.md) -/

/-- R72 -/
def Obligations.CtrlMakeSetsCtrl : Prop :=
  (∀ c : Config, c.Wf → ∀ k ∈ c.ctrlCodes, decodeByte c (makeByte k) = .ctrlMake k) ∧
  (∀ (k : KeyCode) (s : State), exec (.ctrlMake k) s = .next { s with
    regs := { s.regs with ctrl := true },
    out := if s.regs.ctrl = false then traced s.regs .ctrl true else quiet s.regs }) ∧
  decodeByte referenceConfig 0x1D = .ctrlMake 0x1D

/-- R73 -/
def Obligations.CtrlBreakClearsCtrl : Prop :=
  (∀ c : Config, c.Wf → ∀ k ∈ c.ctrlCodes, decodeByte c (breakByte k) = .ctrlBreak k) ∧
  (∀ (k : KeyCode) (s : State), exec (.ctrlBreak k) s = .next { s with
    regs := { s.regs with ctrl := false },
    out := if s.regs.ctrl = true then traced s.regs .ctrl false else quiet s.regs }) ∧
  decodeByte referenceConfig 0x9D = .ctrlBreak 0x1D

/-- R74 -/
def Obligations.AltMakeSetsAlt : Prop :=
  (∀ c : Config, c.Wf → ∀ k ∈ c.altCodes, decodeByte c (makeByte k) = .altMake k) ∧
  (∀ (k : KeyCode) (s : State), exec (.altMake k) s = .next { s with
    regs := { s.regs with alt := true },
    out := if s.regs.alt = false then traced s.regs .alt true else quiet s.regs }) ∧
  decodeByte referenceConfig 0x38 = .altMake 0x38

/-- R75 -/
def Obligations.AltBreakClearsAlt : Prop :=
  (∀ c : Config, c.Wf → ∀ k ∈ c.altCodes, decodeByte c (breakByte k) = .altBreak k) ∧
  (∀ (k : KeyCode) (s : State), exec (.altBreak k) s = .next { s with
    regs := { s.regs with alt := false },
    out := if s.regs.alt = true then traced s.regs .alt false else quiet s.regs }) ∧
  decodeByte referenceConfig 0xB8 = .altBreak 0x38

/-- R76 -/
def Obligations.ShiftMakeSetsShift : Prop :=
  (∀ c : Config, c.Wf → ∀ k ∈ c.shiftCodes, decodeByte c (makeByte k) = .shiftMake k) ∧
  (∀ (k : KeyCode) (s : State), exec (.shiftMake k) s = .next { s with
    regs := { s.regs with shift := true },
    out := if s.regs.shift = false then traced s.regs .shift true else quiet s.regs }) ∧
  decodeByte referenceConfig 0x2A = .shiftMake 0x2A ∧ decodeByte referenceConfig 0x36 = .shiftMake 0x36

/-- R77 -/
def Obligations.ShiftBreakClearsShift : Prop :=
  (∀ c : Config, c.Wf → ∀ k ∈ c.shiftCodes, decodeByte c (breakByte k) = .shiftBreak k) ∧
  (∀ (k : KeyCode) (s : State), exec (.shiftBreak k) s = .next { s with
    regs := { s.regs with shift := false },
    out := if s.regs.shift = true then traced s.regs .shift false else quiet s.regs }) ∧
  decodeByte referenceConfig 0xAA = .shiftBreak 0x2A ∧ decodeByte referenceConfig 0xB6 = .shiftBreak 0x36

/-- R78 -/
def Obligations.CapsMakeInvertsCaps : Prop :=
  (∀ c : Config, c.Wf → decodeByte c (makeByte c.capsCode) = .capsMake c.capsCode) ∧
  (∀ (k : KeyCode) (s : State), exec (.capsMake k) s = .next { s with
    regs := { s.regs with caps := !s.regs.caps }, out := quiet s.regs }) ∧
  decodeByte referenceConfig 0x3A = .capsMake 0x3A

/-- R79 -/
def Obligations.CapsBreakIsIgnored : Prop :=
  (∀ c : Config, c.Wf → decodeByte c (breakByte c.capsCode) = .capsBreak c.capsCode) ∧
  (∀ (k : KeyCode) (s : State), exec (.capsBreak k) s = .next { s with out := quiet s.regs }) ∧
  decodeByte referenceConfig 0xBA = .capsBreak 0x3A

/-- R80 -/
def Obligations.NumMakeInvertsNum : Prop :=
  (∀ c : Config, c.Wf → decodeByte c (makeByte c.numCode) = .numMake c.numCode) ∧
  (∀ (k : KeyCode) (s : State), exec (.numMake k) s = .next { s with
    regs := { s.regs with num := !s.regs.num }, out := quiet s.regs }) ∧
  decodeByte referenceConfig 0x45 = .numMake 0x45

/-- R81 -/
def Obligations.NumBreakIsIgnored : Prop :=
  (∀ c : Config, c.Wf → decodeByte c (breakByte c.numCode) = .numBreak c.numCode) ∧
  (∀ (k : KeyCode) (s : State), exec (.numBreak k) s = .next { s with out := quiet s.regs }) ∧
  decodeByte referenceConfig 0xC5 = .numBreak 0x45

/-- R70: what the ten classes have in common; (a), no ROM read, is that the step does not depend on the tables. -/
def Obligations.ModifierAndLockBytesReportNoneAndKeepTheCounter : Prop :=
  ∀ (i : Instr), i.keyClass ≠ .key → i.keyClass ≠ .keypad → ∀ s : State, ∃ t : State, exec i s = .next t ∧
    (∀ rom rom' : List Byte,
      exec i { s with cfg := withRoms s.cfg rom rom' } = .next { t with cfg := withRoms s.cfg rom rom' }) ∧
    t.out.outKind = .none ∧ t.out.outChar = 0x00 ∧
    t.regs.esc = s.regs.esc ∧ t.out.verbInc = false ∧ t.out.verbDec = false ∧ t.out.altDigit = false ∧
    (∀ m : Modifier, i.keyClass ≠ .mod m → t.regs.held m = s.regs.held m) ∧
    (∀ l : Lock, i.keyClass ≠ .lock l → latch t.regs l = latch s.regs l)

/-- R71: a trace is driven exactly when a momentary modifier's bit changes, and says which and to what. -/
def Obligations.ATraceIsDrivenExactlyOnAModifierEdge : Prop :=
  ∀ (i : Instr) (s t : State), exec i s = .next t →
    (t.out.traceValid = true ↔ ∃ m : Modifier, i.keyClass = .mod m ∧ s.regs.held m ≠ !i.released) ∧
    (∀ m : Modifier, i.keyClass = .mod m → t.regs.held m = !i.released) ∧
    (t.out.traceValid = true → i.keyClass = .mod t.out.traceMod ∧ t.out.traceValue = !i.released) ∧
    (∀ l : Lock, i.keyClass = .lock l → t.out.traceValid = false) ∧
    modifierBits .ctrl = 0b00 ∧ modifierBits .alt = 0b01 ∧ modifierBits .shift = 0b10

/-- R82: the keys of one modifier are not told apart and not counted. -/
def Obligations.KeysOfOneModifierShareOneBit : Prop :=
  ∀ (s : State) (m : Modifier), Ready s → ∀ k ∈ modCodes s.cfg m, ∀ k' ∈ modCodes s.cfg m,
    step (s.present (makeByte k)) = step (s.present (makeByte k')) ∧
    step (s.present (breakByte k)) = step (s.present (breakByte k')) ∧
    ∃ (t : State) (outs : List Outputs),
      runBytes [makeByte k, makeByte k', breakByte k'] s = .next (t, outs) ∧ t.regs.held m = false

/-- R83: any run of make and break bytes of one lock key toggles its latch once a make byte (`true` stands for a make byte). -/
def Obligations.ALatchCountsMakeBytes : Prop :=
  ∀ (s : State) (l : Lock) (presses : List Bool), Ready s →
    ∃ (t : State) (outs : List Outputs),
      runBytes (presses.map fun p => if p then makeByte (lockCode s.cfg l) else breakByte (lockCode s.cfg l)) s =
        .next (t, outs) ∧
      latch t.regs l = (latch s.regs l ^^ decide (presses.count true % 2 = 1))

/-- R84: press then release of a momentary modifier; the spec marks the law as its own inference from R72 to R77. -/
def Obligations.PressThenReleaseRestoresAClearModifier : Prop :=
  ∀ (s : State) (m : Modifier), Ready s → ∀ k ∈ modCodes s.cfg m,
    ∃ (t : State) (o o' : Outputs), runBytes [makeByte k, breakByte k] s = .next (t, [o, o']) ∧
      (s.regs.held m = false → t.regs = s.regs ∧ o = traced s.regs m true ∧
        o'.traceValid = true ∧ o'.traceMod = m ∧ o'.traceValue = false) ∧
      (s.regs.held m = true → t.regs.held m = false ∧ t.regs ≠ s.regs)

/-! ## Regular keys (41_regular_keys.md) -/

/-- R97 -/
def Obligations.KeyMakeLooksUpByShiftXorCaps : Prop :=
  (∀ c : Config, c.Wf → ∀ k : KeyCode, c.Regular k → ¬ c.InKeypad k → decodeByte c (makeByte k) = .keyMake k) ∧
  (∀ (k : KeyCode) (s : State),
    ChainResult s (entry s.cfg (s.regs.shift ^^ s.regs.caps) k) (exec (.keyMake k) s)) ∧
  (∀ raw : Byte, raw ≤ 0x7F#8 → raw ∉ [0x1D#8, 0x2A, 0x36, 0x38, 0x3A, 0x45] → ¬ (0x47#8 ≤ raw ∧ raw ≤ 0x53#8) →
    decodeByte referenceConfig raw = .keyMake (raw.setWidth 7)) ∧
  (∀ s : State, s.cfg = referenceConfig → s.regs = RegFile.reset →
    exec (.keyMake 0x1E) s = .next { s with out := { quiet s.regs with outKind := .char, outChar := 0x61 } })

/-- R98 -/
def Obligations.KeypadMakeLooksUpByNum : Prop :=
  (∀ c : Config, c.Wf → ∀ k : KeyCode, c.Regular k → c.InKeypad k → decodeByte c (makeByte k) = .keypadMake k) ∧
  (∀ (k : KeyCode) (s : State), ChainResult s (entry s.cfg s.regs.num k) (exec (.keypadMake k) s)) ∧
  (∀ raw : Byte, 0x47#8 ≤ raw → raw ≤ 0x53#8 → decodeByte referenceConfig raw = .keypadMake (raw.setWidth 7)) ∧
  (∀ s : State, s.cfg = referenceConfig → s.regs = { RegFile.reset with num := true } →
    exec (.keypadMake 0x47) s = .next { s with out := { quiet s.regs with outKind := .char, outChar := 0x37 } })

/-- R99 -/
def Obligations.KeyBreakDoesNothing : Prop :=
  (∀ c : Config, c.Wf → ∀ k : KeyCode, c.Regular k → ¬ c.InKeypad k → decodeByte c (breakByte k) = .keyBreak k) ∧
  (∀ (k : KeyCode) (s : State), exec (.keyBreak k) s = .next { s with out := quiet s.regs }) ∧
  (∀ raw : Byte, 0x80#8 ≤ raw → raw ∉ [0x9D#8, 0xAA, 0xB6, 0xB8, 0xBA, 0xC5] → ¬ (0xC7#8 ≤ raw ∧ raw ≤ 0xD3#8) →
    decodeByte referenceConfig raw = .keyBreak (raw.setWidth 7))

/-- R100 -/
def Obligations.KeypadBreakDoesNothing : Prop :=
  (∀ c : Config, c.Wf → ∀ k : KeyCode, c.Regular k → c.InKeypad k → decodeByte c (breakByte k) = .keypadBreak k) ∧
  (∀ (k : KeyCode) (s : State), exec (.keypadBreak k) s = .next { s with out := quiet s.regs }) ∧
  (∀ raw : Byte, 0xC7#8 ≤ raw → raw ≤ 0xD3#8 → decodeByte referenceConfig raw = .keypadBreak (raw.setWidth 7))

/-- R86: a keypad code is selected by NUM LOCK; SHIFT and CAPS are not read. -/
def Obligations.ShiftAndCapsDoNotReachAKeypadKey : Prop :=
  ∀ (s : State) (k : KeyCode), s.cfg.Wf → s.cfg.Regular k → s.cfg.InKeypad k →
    decodeByte s.cfg (makeByte k) = .keypadMake k ∧
    ChainResult s (if s.regs.num then entry s.cfg true k else entry s.cfg false k) (exec (.keypadMake k) s) ∧
    ∀ shift caps : Bool, ∃ t t' : State,
      exec (.keypadMake k) s = .next t ∧
      exec (.keypadMake k) { s with regs := { s.regs with shift := shift, caps := caps } } = .next t' ∧
      t'.regs = { t.regs with shift := shift, caps := caps } ∧
      { t'.out with modstat := t.out.modstat } = t.out

/-- R102: the XOR law; the spec marks it as its own inference from R87 and R88. -/
def Obligations.ExactlyOneOfShiftAndCapsGivesTheSecondaryEntry : Prop :=
  ∀ (s : State) (k : KeyCode), s.cfg.Wf → s.cfg.Regular k → ¬ s.cfg.InKeypad k →
    decodeByte s.cfg (makeByte k) = .keyMake k ∧
    (∀ c : Byte, s.cfg.primaryRom[k.toNat]? = some c → s.regs.shift = s.regs.caps →
      ChainResult s c (exec (.keyMake k) s)) ∧
    (∀ c : Byte, s.cfg.secondaryRom[k.toNat]? = some c → s.regs.shift ≠ s.regs.caps →
      ChainResult s c (exec (.keyMake k) s)) ∧
    (∃ c c' : Byte, s.cfg.primaryRom[k.toNat]? = some c ∧ s.cfg.secondaryRom[k.toNat]? = some c')

/-- R103: CAPS LOCK acts on every non-keypad key, not on letters alone; the spec marks it as its own inference from R87. -/
def Obligations.CapsLockIsNotLetterOnly : Prop :=
  (∀ (s : State) (k : KeyCode), s.regs.caps = true → s.regs.shift = false →
    ChainResult s (entry s.cfg true k) (exec (.keyMake k) s)) ∧
  (∀ (s : State) (k : KeyCode), s.regs.caps = true → s.regs.shift = true →
    ChainResult s (entry s.cfg false k) (exec (.keyMake k) s)) ∧
  (∀ s : State, s.cfg = referenceConfig → s.regs = { RegFile.reset with caps := true } →
    exec (.keyMake 0x02) s = .next { s with out := { quiet s.regs with outKind := .char, outChar := 0x21 } }) ∧
  (∀ s : State, s.cfg = referenceConfig → s.regs = { RegFile.reset with caps := true, shift := true } →
    exec (.keyMake 0x1E) s = .next { s with out := { quiet s.regs with outKind := .char, outChar := 0x61 } })

/-- R114: when the ALT+digit hook fires, and what it does then. -/
def Obligations.TheDigitHookFiresExactlyOnAltWithADigit : Prop :=
  ∀ (i : Instr) (s t : State), exec i s = .next t →
    (t.out.altDigit = true ↔ ∃ c : Byte, lookedUp s i = some c ∧ c ≠ s.cfg.unmapped ∧ digitCase s c) ∧
    (t.out.altDigit = true → t.out.outKind = .none ∧ lookedUp s i = some t.out.outChar ∧ t.regs = s.regs)

/-- R93 and R94, with the counter's reset by R92 before them. -/
def Obligations.CtrlWithPlusOrMinusPulsesVerbosity : Prop :=
  ∀ (i : Instr) (s t : State), exec i s = .next t →
    (t.out.verbInc = true ↔ ∃ c : Byte, lookedUp s i = some c ∧ c ≠ s.cfg.unmapped ∧ c ≠ s.cfg.escChar ∧
      s.regs.ctrl = true ∧ (c = 0x2B#8 ∨ c = 0x3D#8)) ∧
    (t.out.verbDec = true ↔ ∃ c : Byte, lookedUp s i = some c ∧ c ≠ s.cfg.unmapped ∧ c ≠ s.cfg.escChar ∧
      s.regs.ctrl = true ∧ (c = 0x2D#8 ∨ c = 0x5F#8)) ∧
    (t.out.verbInc = true ∨ t.out.verbDec = true →
      t.out.outKind = .none ∧ t.out.outChar = 0x00 ∧ t.regs = { s.regs with esc := 0 })

/-- R92: which bytes clear the counter when it is not 0: the regular make bytes past R89, R90 and R91, whether or not R93 or R94
then ends the step; and the third escape press. -/
def Obligations.OnlyAMappedNonEscapeKeyClearsARunningCount : Prop :=
  ∀ (i : Instr) (s t : State), exec i s = .next t →
    (∀ c : Byte, lookedUp s i = some c → c ≠ s.cfg.unmapped → ¬ digitCase s c → c ≠ s.cfg.escChar → t.regs.esc = 0) ∧
    (s.regs.esc ≠ 0 → t.regs.esc = 0 → t.out.outKind ≠ .shutdown →
      ∃ c : Byte, lookedUp s i = some c ∧ c ≠ s.cfg.unmapped ∧ ¬ digitCase s c ∧ c ≠ s.cfg.escChar)

/-- R116: SHUTDOWN is the third escape of a run, nothing sticks, and the machine keeps decoding. -/
def Obligations.ShutdownIsTheThirdEscapeAndNothingSticks : Prop :=
  ∀ (i : Instr) (s t : State), exec i s = .next t →
    (t.out.outKind = .shutdown ↔ s.regs.esc = 2 ∧
      ∃ c : Byte, lookedUp s i = some c ∧ c ≠ s.cfg.unmapped ∧ ¬ digitCase s c ∧ c = s.cfg.escChar) ∧
    (t.out.outKind = .shutdown → t.regs = { s.regs with esc := 0 } ∧
      (Ready s → ∀ raw : Byte, step (t.present raw) = exec (decodeByte s.cfg raw) t ∧
        ∃ u : State, step (t.present raw) = .next u))

/-- R104: along a run of bytes none of which clears the counter, the counter counts the escape presses modulo 3 and SHUTDOWN is
reported once every three; a byte that clears leaves it at 0. The spec marks R104 as its own inference. -/
def Obligations.EveryThirdEscapeOfARunRequestsShutdown : Prop :=
  (∀ (s : State) (bytes : List Byte) (n : Nat), Ready s → escPresses s.cfg s.regs bytes = some n →
    ∃ (t : State) (outs : List Outputs), runBytes bytes s = .next (t, outs) ∧
      t.regs.esc.val = (s.regs.esc.val + n) % 3 ∧
      outs.countP (fun o => o.outKind = .shutdown) = (s.regs.esc.val + n) / 3 ∧
      outs.countP (fun o => o.outKind = .char) = 0) ∧
  (∀ (s : State) (raw : Byte), Ready s → escEffect s.cfg s.regs raw = .clear →
    ∃ t : State, step (s.present raw) = .next t ∧ t.regs.esc = 0 ∧ t.out.outKind ≠ .shutdown)

/-- R101: one step on one byte is the listing's `decode(S, raw)`. -/
def Obligations.AStepIsTheListingOfTheDecodeFunction : Prop :=
  ∀ (s : State) (raw : Byte), Ready s → step (s.present raw) = .next { s with
    regs := (decodeListing s.cfg s.regs raw).1, out := (decodeListing s.cfg s.regs raw).2 }

/-! ## State and memory (10_state.md, 20_memory.md) -/

/-- R35: which class may change which field, and that a reset cycle writes every field; nothing but the outputs changes
besides. The spec marks the map as its own inference from the rules of the classes. -/
def Obligations.EachClassWritesOnlyItsFieldOfTheWriteMap : Prop :=
  (∀ (i : Instr) (s : State), ∃ t : State, exec i s = .next t ∧
    (if i.keyClass = .mod .ctrl then t.regs.ctrl = !i.released else t.regs.ctrl = s.regs.ctrl) ∧
    (if i.keyClass = .mod .alt then t.regs.alt = !i.released else t.regs.alt = s.regs.alt) ∧
    (if i.keyClass = .mod .shift then t.regs.shift = !i.released else t.regs.shift = s.regs.shift) ∧
    (if i.keyClass = .lock .caps ∧ i.released = false then t.regs.caps = !s.regs.caps else t.regs.caps = s.regs.caps) ∧
    (if i.keyClass = .lock .num ∧ i.released = false then t.regs.num = !s.regs.num else t.regs.num = s.regs.num) ∧
    (¬ ((i.keyClass = .key ∨ i.keyClass = .keypad) ∧ i.released = false) → t.regs.esc = s.regs.esc) ∧
    t.cfg = s.cfg ∧ t.resetDone = s.resetDone ∧ t.inputs = s.inputs) ∧
  (∀ (s : State) (cycle : InputCycle) (rest : List InputCycle), s.cfg.Wf → s.inputs = cycle :: rest →
    cycle.rst = true → ∃ t : State, step s = .next t ∧ t.regs = RegFile.reset)

/-- R27: the layout of MODSTAT, that its counter field never reads 3, and that the registers change only in a decode step or a
reset. -/
def Obligations.ModstatIsTheRegisterFileByItsLayout : Prop :=
  (∀ r : RegFile,
    (modstat r).getLsbD 0 = r.ctrl ∧ (modstat r).getLsbD 1 = r.alt ∧ (modstat r).getLsbD 2 = r.shift ∧
    (modstat r).getLsbD 3 = r.caps ∧ (modstat r).getLsbD 4 = r.num ∧
    ((modstat r).extractLsb' 5 2).toNat = r.esc.val ∧ (modstat r).extractLsb' 5 2 ≠ 3#2 ∧
    (modstat r).getLsbD 7 = false) ∧
  modstat RegFile.reset = 0x00 ∧
  (∀ s t : State, step s = .next t → t.regs ≠ s.regs →
    ∃ (cycle : InputCycle) (rest : List InputCycle), s.inputs = cycle :: rest ∧
      ((cycle.rst = true ∧ t.regs = RegFile.reset) ∨ (cycle.rst = false ∧ cycle.inValid = true)))

/-- R34: the reset values. -/
def Obligations.ResetLeavesEveryFieldClear : Prop :=
  State.reset.regs.ctrl = false ∧ State.reset.regs.alt = false ∧ State.reset.regs.shift = false ∧
  State.reset.regs.caps = false ∧ State.reset.regs.num = false ∧ State.reset.regs.esc = 0 ∧
  modstat State.reset.regs = 0x00

/-- R33: a step depends on the parameters, the register file and the byte alone. -/
def Obligations.NothingButTheRegisterFileIsRemembered : Prop :=
  ∀ (s s' : State) (raw : Byte), Ready s → s'.resetDone = true → s'.cfg = s.cfg → s'.regs = s.regs →
    ∃ t t' : State, step (s.present raw) = .next t ∧ step (s'.present raw) = .next t' ∧
      t'.regs = t.regs ∧ t'.out = t.out

/-- R32: no step changes the tables or any other parameter, nor does any run, and each table has 128 entries. -/
def Obligations.NoRunChangesTheParameters : Prop :=
  ∀ (n : Nat) (s t : State), Sys2Proof.core.run n s = .next t → t.cfg = s.cfg ∧
    (0 < n → t.cfg.primaryRom.length = 128 ∧ t.cfg.secondaryRom.length = 128)

/-- R42: a ROM address is in 0..127 and reads that entry; an index past the table fails closed: event NONE, no state change
("A model with a wider index type maps any index >= 128 to the unmapped result", the spec's own inference). -/
def Obligations.ARomReadStaysInsideTheTable : Prop :=
  (∀ (c : Config) (t : Table) (k : KeyCode), c.RomsFull → (c.table t)[k.toNat]? = some (romRead c t k)) ∧
  (∀ (c : Config) (t : Table) (n : Nat), 128 ≤ n → romReadIndex c t n = c.unmapped) ∧
  (∀ (s : State) (t : Table) (n : Nat), 128 ≤ n →
    chainEsc (chainEnd s.cfg s.regs (romReadIndex s.cfg t n)) s.regs.esc = s.regs.esc ∧
    chainOutputs (chainEnd s.cfg s.regs (romReadIndex s.cfg t n)) s.regs (romReadIndex s.cfg t n) = quiet s.regs)

/-! ## Events (60_exceptions.md) -/

/-- R111: the encoding of the event. -/
def Obligations.TheEventEncodingIsAsTabulated : Prop :=
  OutKind.none.bits = 0b00 ∧ OutKind.char.bits = 0b01 ∧ OutKind.shutdown.bits = 0b10 ∧
  (∀ o : OutKind, o.bits ≠ 0b11) ∧
  ∀ (i : Instr) (s t : State), exec i s = .next t →
    t.out.outValid = true ∧
    (t.out.outKind = .none → t.out.altDigit = false → t.out.outChar = 0x00) ∧
    (t.out.outKind = .none → t.out.altDigit = true → digitCase s t.out.outChar ∧ lookedUp s i = some t.out.outChar) ∧
    (t.out.outKind = .char → lookedUp s i = some t.out.outChar ∧ t.out.outChar ≠ s.cfg.unmapped) ∧
    (t.out.outKind = .char → s.cfg.unmapped = 0x00 → t.out.outChar ≠ 0x00) ∧
    (t.out.outKind = .shutdown → t.out.outChar = 0x00)

/-- R118: the only outputs that occur together; the spec marks it as its own inference. -/
def Obligations.AtMostOnePulseAndOnlyWithNone : Prop :=
  ∀ (i : Instr) (s t : State), exec i s = .next t →
    t.out.altDigit.toNat + t.out.verbInc.toNat + t.out.verbDec.toNat + t.out.traceValid.toNat ≤ 1 ∧
    (t.out.altDigit = true ∨ t.out.verbInc = true ∨ t.out.verbDec = true ∨ t.out.traceValid = true →
      t.out.outKind = .none) ∧
    (t.out.traceValid = true → ∃ m : Modifier, i.keyClass = .mod m)

/-- R110: no step faults; from a legal state no run of any length is refused, and the state stays legal. -/
def Obligations.ALegalMachineNeverStops : Prop :=
  (∀ (s : State) (f : Fault), step s ≠ .fault f) ∧
  (∀ (n : Nat) (s : State), s.Inv → ∃ t : State, Sys2Proof.core.run n s = .next t ∧ t.Inv) ∧
  (∀ (s : State) (raw : Byte), Ready s → ∃ t : State, step (s.present raw) = .next t)

/-- The invariant that every step keeps: a well-formed parameter set, a reset applied, legal outputs. -/
def Obligations.EveryStepKeepsTheStateLegal : Prop :=
  ∀ s t : State, s.Inv → step s = .next t → t.Inv

/-- The invariant holds at reset; the parameters and outputs there are the model's choice (log entries 2 and 3). -/
def Obligations.TheResetStateIsLegal : Prop := State.reset.Inv

/-! ## Cycles (70_reset_and_hazards.md) -/

/-- R29: each accepted byte is one step, in the order presented: a step on a presented byte is `exec` of the decoded instruction,
after the cycle is taken from the input. -/
def Obligations.AStepRunsTheDecodedInstruction : Prop :=
  ∀ (s : State) (raw : Byte) (rest : List InputCycle), Ready s →
    s.inputs = { rst := false, inValid := true, inByte := raw } :: rest →
    step s = exec (decodeByte s.cfg raw) { s with inputs := rest } ∧
    decode s.cfg [raw] = .ok (decodeByte s.cfg raw, []) ∧
    ∃ t : State, step s = .next t ∧ t.inputs = rest

/-- R130: a reset cycle, whatever `in_valid` and `in_byte` carry, from any state. -/
def Obligations.AResetCycleClearsTheRegistersAndTakesNoByte : Prop :=
  ∀ (s : State) (valid : Bool) (raw : Byte) (rest : List InputCycle), s.cfg.Wf →
    s.inputs = { rst := true, inValid := valid, inByte := raw } :: rest →
    step s = .next { s with
      regs := { ctrl := false, alt := false, shift := false, caps := false, num := false, esc := 0 },
      resetDone := true, inputs := rest, out := { Outputs.zero with modstat := modstat s.regs } }

/-- R129: a cycle without an accepted byte keeps the state. -/
def Obligations.ACycleWithoutAByteKeepsTheState : Prop :=
  ∀ (s : State) (raw : Byte) (rest : List InputCycle), Ready s →
    s.inputs = { rst := false, inValid := false, inByte := raw } :: rest →
    step s = .next { s with inputs := rest, out := { Outputs.zero with modstat := modstat s.regs } }

/-- The model's choice (log entry 1): with no cycle presented, a step is a cycle without a byte. -/
def Obligations.NoPresentedCycleIsAnIdleCycle : Prop :=
  ∀ s : State, Ready s → s.inputs = [] →
    step s = .next { s with out := { Outputs.zero with modstat := modstat s.regs } }

/-- I5 (93_implementation_defined.md; log entry 4): no step before the first reset cycle, for any byte; a reset cycle ends that. -/
def Obligations.NoStepBeforeTheFirstReset : Prop :=
  ∀ s : State, s.cfg.Wf → s.resetDone = false →
    (∀ raw : Byte, step (s.present raw) = .refused .beforeReset) ∧
    (∀ (cycle : InputCycle) (rest : List InputCycle), s.inputs = cycle :: rest → cycle.rst = true →
      ∃ t : State, step s = .next t ∧ t.resetDone = true ∧ t.regs = RegFile.reset)

/-- R135: `modstat` lags by one cycle; the spec marks it as its own inference from R112. -/
def Obligations.ModstatShowsTheStateBeforeTheCycle : Prop :=
  ∀ s t u : State, step s = .next t → step t = .next u →
    t.out.modstat = modstat s.regs ∧ u.out.modstat = modstat t.regs

/-- R137(a): a modifier bit stays set until a break byte of its set. -/
def Obligations.AHeldModifierStaysSetUntilABreakOfItsSet : Prop :=
  ∀ (s : State) (m : Modifier) (bytes : List Byte), Ready s → s.regs.held m = true →
    (∀ raw ∈ bytes, ∀ k ∈ modCodes s.cfg m, raw ≠ breakByte k) →
    ∃ (t : State) (outs : List Outputs), runBytes bytes s = .next (t, outs) ∧ t.regs.held m = true

/-- R137(d): three make bytes of a held escape key request shutdown. -/
def Obligations.ThreeMakeBytesOfAHeldEscapeKeyRequestShutdown : Prop :=
  ∀ (s : State) (k : KeyCode), Ready s → s.cfg.Regular k → s.regs.esc = 0 → s.cfg.escChar ≠ s.cfg.unmapped →
    ¬ digitCase s s.cfg.escChar → lookedUp s (decodeByte s.cfg (makeByte k)) = some s.cfg.escChar →
    ∃ (t : State) (o o' o'' : Outputs), runBytes [makeByte k, makeByte k, makeByte k] s = .next (t, [o, o', o'']) ∧
      o.outKind = .none ∧ o'.outKind = .none ∧ o''.outKind = .shutdown ∧ t.regs = s.regs

/-! ## The host (60_exceptions.md) -/

/-- R113: the sink's level moves by exactly 1 on a pulse, clamped at both ends, and the pulse's byte polls as no character. -/
def Obligations.ThePolledLevelMovesByOneAndIsClamped : Prop :=
  ∀ (p : SinkParams) (y : KbdSystem) (raw : Byte) (c : Byte), Ready y.machine → y.terminated = false →
    y.machine.regs.ctrl = true → lookedUp y.machine (decodeByte y.machine.cfg raw) = some c →
    c ≠ y.machine.cfg.unmapped → c ≠ y.machine.cfg.escChar →
    (c = 0x2B#8 ∨ c = 0x3D#8 → ∃ z : KbdSystem, y.poll p (some raw) = .next (z, none) ∧
      z.sink = { y.sink with level := min (y.sink.level + 1) p.levelMax }) ∧
    (c = 0x2D#8 ∨ c = 0x5F#8 → ∃ z : KbdSystem, y.poll p (some raw) = .next (z, none) ∧
      (z.sink.level : Int) = max ((y.sink.level : Int) - 1) 0 ∧ z.sink.traces = y.sink.traces)

/-- R121: `poll` takes at most one step and returns the character of a CHAR event alone. -/
def Obligations.PollReturnsTheCharacterOfACharEvent : Prop :=
  ∀ (p : SinkParams) (y : KbdSystem), Ready y.machine → y.terminated = false →
    y.poll p none = .next (y, none) ∧
    ∀ raw : Byte, ∃ (z : KbdSystem) (r : Option Byte), y.poll p (some raw) = .next (z, r) ∧
      step (y.machine.present raw) = .next z.machine ∧
      (z.machine.out.outKind = .char → r = some z.machine.out.outChar) ∧
      (z.machine.out.outKind ≠ .char → r = none) ∧
      (z.terminated = true ↔ z.machine.out.outKind = .shutdown)

/-- R122 and R123: `get_blocking` polls until a character is produced or SHUTDOWN ends the run, over any answers of the Port
Reader. The model's choices in it (log entry 8): after the run has ended `poll` presents no byte and returns nothing, and over a
list of answers that is used up `get_blocking` still waits. -/
def Obligations.GetBlockingPollsUntilACharacterOrTheEndOfTheRun : Prop :=
  ∀ (p : SinkParams) (y : KbdSystem) (answers : List (Option Byte)), Ready y.machine →
    (y.terminated = true → y.getBlocking p answers = .next (y, .terminated, answers) ∧
      ∀ ready : Option Byte, y.poll p ready = .next (y, none)) ∧
    (y.terminated = false → ∃ (z : KbdSystem) (b : Blocking) (rest asked : List (Option Byte)),
      y.getBlocking p answers = .next (z, b, rest) ∧ answers = asked ++ rest ∧
      (b = .waiting → z.terminated = false ∧ rest = []) ∧
      (b ≠ .waiting → ∃ (before : List (Option Byte)) (ready : Option Byte) (x : KbdSystem),
        asked = before ++ [ready] ∧ y.getBlocking p before = .next (x, .waiting, []) ∧
        (∀ c : Byte, b = .char c → x.poll p ready = .next (z, some c) ∧ z.terminated = false) ∧
        (b = .terminated → x.poll p ready = .next (z, none) ∧ z.terminated = true ∧
          z.machine.out.outKind = .shutdown)))
end

