-- ==== Sys2Proof/Laws/Decode.lean ====
section
/-! SUPPORT. The two fields of a byte, and what each class of code decodes to. -/

namespace Sys2Proof

open Machine

@[simp] theorem releaseFlag_makeByte (k : KeyCode) : releaseFlag (makeByte k) = false := by
  revert k; decide

@[simp] theorem releaseFlag_breakByte (k : KeyCode) : releaseFlag (breakByte k) = true := by
  revert k; decide

@[simp] theorem keyCode_makeByte (k : KeyCode) : keyCode (makeByte k) = k := by
  revert k; decide

@[simp] theorem keyCode_breakByte (k : KeyCode) : keyCode (breakByte k) = k := by
  revert k; decide

/-- A byte is its release flag above its key code (30_encoding.md R55). -/
theorem byte_eq_fields (raw : Byte) : BitVec.ofBool (releaseFlag raw) ++ keyCode raw = raw := by
  revert raw; decide +kernel

theorem encodeByte_eq (i : Instr) : encodeByte i = if i.released then breakByte i.code else makeByte i.code := by
  unfold encodeByte makeByte breakByte
  cases i.released <;> rfl

@[simp] theorem assemble_keyClass (kc : KeyClass) (b : Bool) (k : KeyCode) : (assemble kc b k).keyClass = kc := by
  cases kc with
  | mod m => cases m <;> cases b <;> rfl
  | lock l => cases l <;> cases b <;> rfl
  | keypad => cases b <;> rfl
  | key => cases b <;> rfl

@[simp] theorem assemble_released (kc : KeyClass) (b : Bool) (k : KeyCode) : (assemble kc b k).released = b := by
  cases kc with
  | mod m => cases m <;> cases b <;> rfl
  | lock l => cases l <;> cases b <;> rfl
  | keypad => cases b <;> rfl
  | key => cases b <;> rfl

@[simp] theorem assemble_code (kc : KeyClass) (b : Bool) (k : KeyCode) : (assemble kc b k).code = k := by
  cases kc with
  | mod m => cases m <;> cases b <;> rfl
  | lock l => cases l <;> cases b <;> rfl
  | keypad => cases b <;> rfl
  | key => cases b <;> rfl

/-- An instruction is its key class, its release flag and its code. -/
theorem assemble_of_fields (i : Instr) : assemble i.keyClass i.released i.code = i := by cases i <;> rfl

/-- Under disjoint sets a code is classified as the one class whose condition it meets (30_encoding.md R57, R58). -/
theorem classify_of_admits (c : Config) (hc : c.Wf) (k : KeyCode) (kc : KeyClass) (h : kc.Admits c k) :
    classify c k = kc := by
  obtain ⟨⟨hctrl, halt, hshift, hlock⟩, -⟩ := hc
  unfold classify
  cases kc with
  | mod m =>
    cases m with
    | ctrl => simp [show k ∈ c.ctrlCodes from h]
    | alt =>
      have h : k ∈ c.altCodes := h
      have hn : k ∉ c.ctrlCodes := fun hk => (hctrl k hk).1 h
      simp [h, hn]
    | shift =>
      have h : k ∈ c.shiftCodes := h
      have hn : k ∉ c.ctrlCodes := fun hk => (hctrl k hk).2.1 h
      have hn' : k ∉ c.altCodes := fun hk => (halt k hk).1 h
      simp [h, hn, hn']
  | lock l =>
    cases l with
    | caps =>
      obtain rfl : k = c.capsCode := h
      have hn : c.capsCode ∉ c.ctrlCodes := fun hk => (hctrl _ hk).2.2.1 rfl
      have hn' : c.capsCode ∉ c.altCodes := fun hk => (halt _ hk).2.1 rfl
      have hn'' : c.capsCode ∉ c.shiftCodes := fun hk => (hshift _ hk).1 rfl
      simp [hn, hn', hn'']
    | num =>
      obtain rfl : k = c.numCode := h
      have hn : c.numCode ∉ c.ctrlCodes := fun hk => (hctrl _ hk).2.2.2 rfl
      have hn' : c.numCode ∉ c.altCodes := fun hk => (halt _ hk).2.2 rfl
      have hn'' : c.numCode ∉ c.shiftCodes := fun hk => (hshift _ hk).2 rfl
      simp [hn, hn', hn'', Ne.symm hlock]
  | keypad =>
    have h : c.Regular k ∧ c.InKeypad k := h
    simp [h.1, h.2]
  | key =>
    have h : c.Regular k ∧ ¬ c.InKeypad k := h
    simp [h.1, h.2]

/-- Whatever the parameters, a code meets the condition of the class it is classified as. -/
theorem admits_classify (c : Config) (k : KeyCode) : (classify c k).Admits c k := by
  unfold classify
  split_ifs with h1 h2 h3 h4 h5 h6
  · exact h1
  · exact h2
  · exact h3
  · exact h4
  · exact h5
  · exact ⟨⟨h1, h2, h3, h4, h5⟩, h6⟩
  · exact ⟨⟨h1, h2, h3, h4, h5⟩, h6⟩

/-- The byte of a class's code decodes to that class (30_encoding.md R57). -/
theorem decodeByte_of_admits (c : Config) (hc : c.Wf) (kc : KeyClass) (raw : Byte) (h : kc.Admits c (keyCode raw)) :
    decodeByte c raw = assemble kc (releaseFlag raw) (keyCode raw) := by
  rw [decodeByte, classify_of_admits c hc _ kc h]

end Sys2Proof
end

