-- ==== Sys2Proof/Laws/State.lean ====
section
/-! SUPPORT. The fields after each update of the state, the register file and the outputs. -/

namespace Sys2Proof.Machine

variable (s : State) (r : RegFile) (o : Outputs) (v : Bool) (raw : Byte)

@[simp] theorem commit_cfg : (commit r o s).cfg = s.cfg := rfl
@[simp] theorem commit_regs : (commit r o s).regs = r := rfl
@[simp] theorem commit_resetDone : (commit r o s).resetDone = s.resetDone := rfl
@[simp] theorem commit_inputs : (commit r o s).inputs = s.inputs := rfl
@[simp] theorem commit_out : (commit r o s).out = o := rfl

@[simp] theorem takeCycle_cfg : (takeCycle s).cfg = s.cfg := rfl
@[simp] theorem takeCycle_regs : (takeCycle s).regs = s.regs := rfl
@[simp] theorem takeCycle_resetDone : (takeCycle s).resetDone = s.resetDone := rfl
@[simp] theorem takeCycle_inputs : (takeCycle s).inputs = s.inputs.tail := rfl
@[simp] theorem takeCycle_out : (takeCycle s).out = s.out := rfl

@[simp] theorem present_cfg : (s.present raw).cfg = s.cfg := rfl
@[simp] theorem present_regs : (s.present raw).regs = s.regs := rfl
@[simp] theorem present_resetDone : (s.present raw).resetDone = s.resetDone := rfl
@[simp] theorem present_inputs : (s.present raw).inputs = .byte raw :: s.inputs := rfl
@[simp] theorem present_out : (s.present raw).out = s.out := rfl

@[simp] theorem takeCycle_present : takeCycle (s.present raw) = s := rfl
@[simp] theorem currentCycle_present : currentCycle (s.present raw) = .byte raw := rfl

@[simp] theorem resetCycle_cfg : (resetCycle s).cfg = s.cfg := rfl
@[simp] theorem resetCycle_regs : (resetCycle s).regs = .reset := rfl
@[simp] theorem resetCycle_resetDone : (resetCycle s).resetDone = true := rfl
@[simp] theorem resetCycle_inputs : (resetCycle s).inputs = s.inputs := rfl
@[simp] theorem resetCycle_out : (resetCycle s).out = idleOutputs s.regs := rfl

@[simp] theorem idleCycle_cfg : (idleCycle s).cfg = s.cfg := rfl
@[simp] theorem idleCycle_regs : (idleCycle s).regs = s.regs := rfl
@[simp] theorem idleCycle_resetDone : (idleCycle s).resetDone = s.resetDone := rfl
@[simp] theorem idleCycle_inputs : (idleCycle s).inputs = s.inputs := rfl
@[simp] theorem idleCycle_out : (idleCycle s).out = idleOutputs s.regs := rfl

@[simp] theorem setHeld_esc (m : Modifier) : (r.setHeld v m).esc = r.esc := by cases m <;> rfl
@[simp] theorem setHeld_caps (m : Modifier) : (r.setHeld v m).caps = r.caps := by cases m <;> rfl
@[simp] theorem setHeld_num (m : Modifier) : (r.setHeld v m).num = r.num := by cases m <;> rfl
@[simp] theorem setHeld_held (m : Modifier) : (r.setHeld v m).held m = v := by cases m <;> rfl
theorem setHeld_held_of_ne (m n : Modifier) (h : n ≠ m) : (r.setHeld v m).held n = r.held n := by
  cases m <;> cases n <;> first | rfl | exact absurd rfl h

@[simp] theorem toggle_esc (l : Lock) : (r.toggle l).esc = r.esc := by cases l <;> rfl
@[simp] theorem toggle_held (l : Lock) (m : Modifier) : (r.toggle l).held m = r.held m := by cases l <;> cases m <;> rfl
@[simp] theorem toggle_caps : (r.toggle .caps).caps = !r.caps := rfl
@[simp] theorem toggle_num : (r.toggle .num).num = !r.num := rfl

@[simp] theorem idleOutputs_outValid : (idleOutputs r).outValid = false := rfl
@[simp] theorem idleOutputs_modstat : (idleOutputs r).modstat = modstat r := rfl

@[simp] theorem noneOutputs_outValid : (noneOutputs r).outValid = true := rfl
@[simp] theorem noneOutputs_outKind : (noneOutputs r).outKind = .none := rfl
@[simp] theorem noneOutputs_outChar : (noneOutputs r).outChar = 0x00 := rfl
@[simp] theorem noneOutputs_verbInc : (noneOutputs r).verbInc = false := rfl
@[simp] theorem noneOutputs_verbDec : (noneOutputs r).verbDec = false := rfl
@[simp] theorem noneOutputs_altDigit : (noneOutputs r).altDigit = false := rfl
@[simp] theorem noneOutputs_traceValid : (noneOutputs r).traceValid = false := rfl
@[simp] theorem noneOutputs_traceMod : (noneOutputs r).traceMod = .ctrl := rfl
@[simp] theorem noneOutputs_traceValue : (noneOutputs r).traceValue = false := rfl
@[simp] theorem noneOutputs_modstat : (noneOutputs r).modstat = modstat r := rfl

end Sys2Proof.Machine
end

