-- ==== Sys2Proof/Laws/Ops.lean ====
section
/-! SUPPORT. What each shared operation can do, said once. -/

namespace Sys2Proof.Machine

/-- The four shapes of an instruction's effect. -/
theorem exec_cases (i : Instr) (s : State) :
    (∃ m, i.keyClass = .mod m ∧ exec i s = .next (momentary m (!i.released) s)) ∨
    (∃ l, i.keyClass = .lock l ∧ i.released = false ∧ exec i s = .next (toggleLock l s)) ∨
    ((∃ l, i.keyClass = .lock l) ∧ i.released = true ∧ exec i s = .next (noEffect s)) ∨
    ((i.keyClass = .key ∨ i.keyClass = .keypad) ∧ i.released = true ∧ exec i s = .next (noEffect s)) ∨
    (i = .keyMake i.code ∧ exec i s = .next (regularMake (selectKey s.regs) i.code s)) ∨
    (i = .keypadMake i.code ∧ exec i s = .next (regularMake (selectKeypad s.regs) i.code s)) := by
  cases i with
  | ctrlMake k | ctrlBreak k => exact .inl ⟨.ctrl, rfl, rfl⟩
  | altMake k | altBreak k => exact .inl ⟨.alt, rfl, rfl⟩
  | shiftMake k | shiftBreak k => exact .inl ⟨.shift, rfl, rfl⟩
  | capsMake k => exact .inr (.inl ⟨.caps, rfl, rfl, rfl⟩)
  | numMake k => exact .inr (.inl ⟨.num, rfl, rfl, rfl⟩)
  | capsBreak k => exact .inr (.inr (.inl ⟨⟨.caps, rfl⟩, rfl, rfl⟩))
  | numBreak k => exact .inr (.inr (.inl ⟨⟨.num, rfl⟩, rfl, rfl⟩))
  | keyBreak k => exact .inr (.inr (.inr (.inl ⟨.inl rfl, rfl, rfl⟩)))
  | keypadBreak k => exact .inr (.inr (.inr (.inl ⟨.inr rfl, rfl, rfl⟩)))
  | keyMake k => exact .inr (.inr (.inr (.inr (.inl ⟨rfl, rfl⟩))))
  | keypadMake k => exact .inr (.inr (.inr (.inr (.inr ⟨rfl, rfl⟩))))

/-- Under a well-formed parameter set a step is one clock cycle. -/
theorem step_of_wf (s : State) (hc : s.cfg.Wf) : step s = runCycle (currentCycle s) (takeCycle s) := if_pos hc

/-- The one step of a machine that can accept a byte, on a presented byte. -/
theorem step_present (s : State) (raw : Byte) (hc : s.cfg.Wf) (hr : s.resetDone = true) :
    step (s.present raw) = exec (decodeByte s.cfg raw) s := by
  rw [step_of_wf (s.present raw) hc]
  simp [runCycle, InputCycle.byte, hr]

/-- Everything a step can do: a reset cycle, a byte, or an idle cycle, under a well-formed parameter set. -/
theorem step_cases {s t : State} (h : step s = .next t) : s.cfg.Wf ∧
    (((currentCycle s).rst = true ∧ t = resetCycle (takeCycle s)) ∨
     ((currentCycle s).rst = false ∧ s.resetDone = true ∧ (currentCycle s).inValid = true ∧
       exec (decodeByte s.cfg (currentCycle s).inByte) (takeCycle s) = .next t) ∨
     ((currentCycle s).rst = false ∧ s.resetDone = true ∧ (currentCycle s).inValid = false ∧
       t = idleCycle (takeCycle s))) := by
  unfold step at h
  split at h
  next hc =>
    refine ⟨hc, ?_⟩
    unfold runCycle at h
    split at h
    next hrst => exact .inl ⟨hrst, (Host.Outcome.next.inj h).symm⟩
    next hrst =>
      split at h
      · cases h
      next hdone =>
        have hrst : (currentCycle s).rst = false := by simpa using hrst
        have hdone : s.resetDone = true := by simpa using hdone
        split at h
        next hv => exact .inr (.inl ⟨hrst, hdone, hv, h⟩)
        next hv => exact .inr (.inr ⟨hrst, hdone, by simpa using hv, (Host.Outcome.next.inj h).symm⟩)
  · cases h

/-- The outputs of a modifier byte: NONE, with a trace exactly on an edge (40_modifier_keys.md R71). -/
theorem traceOutputs_cases (r : RegFile) (m : Modifier) (v : Bool) :
    (r.held m = v ∧ traceOutputs r m v = noneOutputs r) ∨
    (r.held m ≠ v ∧ traceOutputs r m v =
      { noneOutputs r with traceValid := true, traceMod := m, traceValue := v }) := by
  unfold traceOutputs
  split
  next h => exact .inl ⟨h, rfl⟩
  next h => exact .inr ⟨h, rfl⟩

/-- The conditions under which each rule ends the chain, in the order of 41_regular_keys.md R96. -/
theorem chainEnd_cases (c : Config) (r : RegFile) (ch : Byte) :
    (ch = c.unmapped ∧ chainEnd c r ch = .unmapped) ∨
    (ch ≠ c.unmapped ∧ ((r.alt && isDigit ch) = true ∧ chainEnd c r ch = .altDigit ∨
      (r.alt && isDigit ch) = false ∧ (ch = c.escChar ∧ chainEnd c r ch = .escape ∨
        ch ≠ c.escChar ∧ ((r.ctrl && isIncrease ch) = true ∧ chainEnd c r ch = .verbInc ∨
          (r.ctrl && isIncrease ch) = false ∧ ((r.ctrl && isDecrease ch) = true ∧ chainEnd c r ch = .verbDec ∨
            (r.ctrl && isDecrease ch) = false ∧ chainEnd c r ch = .char))))) := by
  unfold chainEnd
  split_ifs with h1 h2 h3 h4 h5
  · exact .inl ⟨h1, rfl⟩
  · exact .inr ⟨h1, .inl ⟨h2, rfl⟩⟩
  · exact .inr ⟨h1, .inr ⟨by simpa using h2, .inl ⟨h3, rfl⟩⟩⟩
  · exact .inr ⟨h1, .inr ⟨by simpa using h2, .inr ⟨h3, .inl ⟨h4, rfl⟩⟩⟩⟩
  · exact .inr ⟨h1, .inr ⟨by simpa using h2, .inr ⟨h3, .inr ⟨by simpa using h4, .inl ⟨h5, rfl⟩⟩⟩⟩⟩
  · exact .inr ⟨h1, .inr ⟨by simpa using h2, .inr ⟨h3, .inr ⟨by simpa using h4, .inr ⟨by simpa using h5, rfl⟩⟩⟩⟩⟩

/-- A ROM address lies inside a table (20_memory.md R42). -/
theorem romRead_eq_getD (c : Config) (t : Table) (k : KeyCode) :
    romRead c t k = (c.table t).getD k.toNat c.unmapped := by
  unfold romRead romReadIndex
  exact if_pos k.isLt

/-- The effect of a regular make byte whose chain ends at a known rule. -/
theorem regularMake_of_chainEnd (t : Table) (k : KeyCode) (s : State) (ch : Byte) (e : ChainEnd)
    (hch : romRead s.cfg t k = ch) (he : chainEnd s.cfg s.regs ch = e) :
    regularMake t k s =
      commit { s.regs with esc := chainEsc e s.regs.esc } (chainOutputs e s.regs ch) s := by
  subst hch he
  rfl

theorem isDigit_iff (ch : Byte) : isDigit ch = true ↔ 0x30#8 ≤ ch ∧ ch ≤ 0x39#8 := by simp [isDigit]

theorem isIncrease_iff (ch : Byte) : isIncrease ch = true ↔ ch = 0x2B#8 ∨ ch = 0x3D#8 := by simp [isIncrease]

theorem isDecrease_iff (ch : Byte) : isDecrease ch = true ↔ ch = 0x2D#8 ∨ ch = 0x5F#8 := by simp [isDecrease]

/-- R93 and R94 test disjoint sets of characters (41_regular_keys.md R96). -/
theorem isIncrease_not_isDecrease (ch : Byte) (h : isIncrease ch = true) : isDecrease ch = false := by
  rcases (isIncrease_iff ch).1 h with rfl | rfl <;> decide

/-- R90 and R93 test disjoint sets of characters (41_regular_keys.md R96). -/
theorem isIncrease_not_isDigit (ch : Byte) (h : isIncrease ch = true) : isDigit ch = false := by
  rcases (isIncrease_iff ch).1 h with rfl | rfl <;> decide

/-- R90 and R94 test disjoint sets of characters (41_regular_keys.md R96). -/
theorem isDecrease_not_isDigit (ch : Byte) (h : isDecrease ch = true) : isDigit ch = false := by
  rcases (isDecrease_iff ch).1 h with rfl | rfl <;> decide

/-- The escape counter after a press (41_regular_keys.md R91): counted, or 0 when it reaches the limit. -/
theorem escSucc_cases (e : Fin 3) :
    (e.val < 2 ∧ (escSucc e).val = e.val + 1 ∧ escReaches e = false) ∨
    (e = 2 ∧ escSucc e = 0 ∧ escReaches e = true) := by
  revert e; decide

end Sys2Proof.Machine
end

