-- ==== Sys2Proof/Laws/PerInstr.lean ====
section
/-! SUPPORT. Families of statements made once per constructor of Instr. -/

namespace Sys2Proof.Laws.EncodedFields

/-- The two fields of an instruction's byte are its code and the release flag of its class (30_encoding.md R55, R57). -/
def Statement (i : Instr) : Prop := keyCode (encodeByte i) = i.code ∧ releaseFlag (encodeByte i) = i.released

theorem ctrlMake (k : KeyCode) : Statement (.ctrlMake k) := by revert k; unfold Statement; decide
theorem ctrlBreak (k : KeyCode) : Statement (.ctrlBreak k) := by revert k; unfold Statement; decide
theorem altMake (k : KeyCode) : Statement (.altMake k) := by revert k; unfold Statement; decide
theorem altBreak (k : KeyCode) : Statement (.altBreak k) := by revert k; unfold Statement; decide
theorem shiftMake (k : KeyCode) : Statement (.shiftMake k) := by revert k; unfold Statement; decide
theorem shiftBreak (k : KeyCode) : Statement (.shiftBreak k) := by revert k; unfold Statement; decide
theorem capsMake (k : KeyCode) : Statement (.capsMake k) := by revert k; unfold Statement; decide
theorem capsBreak (k : KeyCode) : Statement (.capsBreak k) := by revert k; unfold Statement; decide
theorem numMake (k : KeyCode) : Statement (.numMake k) := by revert k; unfold Statement; decide
theorem numBreak (k : KeyCode) : Statement (.numBreak k) := by revert k; unfold Statement; decide
theorem keypadMake (k : KeyCode) : Statement (.keypadMake k) := by revert k; unfold Statement; decide
theorem keypadBreak (k : KeyCode) : Statement (.keypadBreak k) := by revert k; unfold Statement; decide
theorem keyMake (k : KeyCode) : Statement (.keyMake k) := by revert k; unfold Statement; decide
theorem keyBreak (k : KeyCode) : Statement (.keyBreak k) := by revert k; unfold Statement; decide

end Sys2Proof.Laws.EncodedFields
end

