-- ==== Sys2Proof/Laws/Step.lean ====
section
/-! SUPPORT. Runs of several steps, one step at a time. -/

namespace Sys2Proof.Machine

/-- A run of one more step is that step, then the run. -/
theorem core_run_succ (M : Host.Core) (n : Nat) (s : M.State) :
    M.run (n + 1) s = match M.step s with
      | .next t => M.run n t
      | .fault f => .fault f
      | .refused r => .refused r := rfl

/-- A run of one more step, from a state whose step answers a next state. -/
theorem run_succ_of_next {s t : State} (n : Nat) (h : step s = .next t) :
    Sys2Proof.core.run (n + 1) s = Sys2Proof.core.run n t := by
  have h : Sys2Proof.core.step s = .next t := h
  refine (core_run_succ Sys2Proof.core n s).trans ?_
  rw [h]

/-- A run of one more step that answers a next state took a step that did. -/
theorem step_of_run_succ {s u : State} {n : Nat} (h : Sys2Proof.core.run (n + 1) s = .next u) :
    ∃ t : State, step s = .next t ∧ Sys2Proof.core.run n t = .next u := by
  replace h := (core_run_succ Sys2Proof.core n s).symm.trans h
  cases hs : Sys2Proof.core.step s with
  | next t => rw [hs] at h; exact ⟨t, hs, h⟩
  | fault f => rw [hs] at h; cases h
  | refused r => rw [hs] at h; cases h

/-- A byte run, one byte at a time. -/
theorem runBytes_cons_of_next {s t u : State} {raw : Byte} {rest : List Byte} {outs : List Outputs}
    (h : step (s.present raw) = .next t) (hrest : runBytes rest t = .next (u, outs)) :
    runBytes (raw :: rest) s = .next (u, t.out :: outs) := by
  simp only [runBytes, h, hrest]

end Sys2Proof.Machine
end

