-- ==== Sys2Proof/Tests/Slice0.lean ====
section
/-! SUPPORT. The model's own tests: the smoke tests of well-formedness, the decoding of words written out from 30_encoding.md R55
and R60, single steps taken from the vectors of 95_test_vectors.md, and a witness for the hypotheses of each statement. -/

-- One theorem after another: many kernel evaluations at once take more memory than the sandbox has.
set_option Elab.async false

namespace Sys2Proof.Tests

open Sys2Proof.Machine

/-! ## Well-formedness (00_scope.md R8, 30_encoding.md R57) -/

theorem test_reference_wf : referenceConfig.Wf := by decide +kernel

theorem test_wf_refuses_shared_modifier_codes :
    ∀ c ∈ [{ referenceConfig with altCodes := [0x1D] }, { referenceConfig with ctrlCodes := [0x36] },
      { referenceConfig with altCodes := [0x38, 0x2A] }], ¬ Config.Wf c := by decide +kernel

theorem test_wf_refuses_a_shared_caps_code :
    ∀ c ∈ [{ referenceConfig with capsCode := 0x1D }, { referenceConfig with capsCode := 0x38 },
      { referenceConfig with capsCode := 0x36 }], ¬ Config.Wf c := by decide +kernel

theorem test_wf_refuses_a_shared_num_code :
    ∀ c ∈ [{ referenceConfig with numCode := 0x1D }, { referenceConfig with numCode := 0x38 },
      { referenceConfig with numCode := 0x36 }, { referenceConfig with numCode := 0x3A }], ¬ Config.Wf c := by decide +kernel

theorem test_wf_refuses_crossed_keypad_bounds : ¬ Config.Wf { referenceConfig with numpadLo := 0x54 } := by decide +kernel

theorem test_wf_refuses_short_and_long_roms :
    ∀ c ∈ [{ referenceConfig with primaryRom := referencePrimaryRom.tail },
      { referenceConfig with secondaryRom := 0x00 :: referenceSecondaryRom }], ¬ Config.Wf c := by decide +kernel

theorem test_wf_refuses_shift_codes_without_the_source_code :
    ∀ c ∈ [{ referenceConfig with shiftCodes := [0x36] },
      { referenceConfig with shiftCodes := [0x36], sourceHardware := false }], ¬ Config.Wf c := by decide +kernel

theorem test_wf_refuses_a_source_claim_without_its_entries :
    ∀ c ∈ [{ referenceConfig with primaryRom := referenceSecondaryRom },
      { referenceConfig with secondaryRom := referencePrimaryRom }], ¬ Config.Wf c := by decide +kernel

theorem test_wf_without_the_source_claim :
    Config.Wf { referenceConfig with secondaryRom := referencePrimaryRom, sourceHardware := false } := by decide +kernel

theorem test_instr_wf_refuses_a_code_of_another_class :
    ¬ (Instr.ctrlMake 0x38).Wf referenceConfig ∧ ¬ (Instr.altBreak 0x1D).Wf referenceConfig ∧
    ¬ (Instr.shiftMake 0x3A).Wf referenceConfig ∧ ¬ (Instr.capsMake 0x45).Wf referenceConfig ∧
    ¬ (Instr.numBreak 0x3A).Wf referenceConfig := by decide +kernel

theorem test_instr_wf_refuses_a_regular_code_of_another_class :
    ¬ (Instr.keypadMake 0x46).Wf referenceConfig ∧ ¬ (Instr.keypadBreak 0x54).Wf referenceConfig ∧
    ¬ (Instr.keyMake 0x47).Wf referenceConfig ∧ ¬ (Instr.keyMake 0x2A).Wf referenceConfig := by decide +kernel

/-! ## Decoding: `R` in bit 7, then the seven code bits (R55), with the reference codes of R60 -/

theorem test_decode_ctrl : decodeByte referenceConfig 0b0_0011101 = .ctrlMake 0b0011101 ∧
    decodeByte referenceConfig 0b1_0011101 = .ctrlBreak 0b0011101 := by decide +kernel
theorem test_decode_alt : decodeByte referenceConfig 0b0_0111000 = .altMake 0b0111000 ∧
    decodeByte referenceConfig 0b1_0111000 = .altBreak 0b0111000 := by decide +kernel
theorem test_decode_shift : decodeByte referenceConfig 0b0_0101010 = .shiftMake 0b0101010 ∧
    decodeByte referenceConfig 0b1_0110110 = .shiftBreak 0b0110110 := by decide +kernel
theorem test_decode_caps : decodeByte referenceConfig 0b0_0111010 = .capsMake 0b0111010 ∧
    decodeByte referenceConfig 0b1_0111010 = .capsBreak 0b0111010 := by decide +kernel
theorem test_decode_num : decodeByte referenceConfig 0b0_1000101 = .numMake 0b1000101 ∧
    decodeByte referenceConfig 0b1_1000101 = .numBreak 0b1000101 := by decide +kernel
theorem test_decode_keypad : decodeByte referenceConfig 0b0_1000111 = .keypadMake 0b1000111 ∧
    decodeByte referenceConfig 0b1_1010011 = .keypadBreak 0b1010011 := by decide +kernel
theorem test_decode_key : decodeByte referenceConfig 0b0_0011110 = .keyMake 0b0011110 ∧
    decodeByte referenceConfig 0b1_1010100 = .keyBreak 0b1010100 := by decide +kernel

theorem test_decode_stream : decode referenceConfig [] = .error .noByte ∧
    decode referenceConfig [0x2A, 0x1E] = .ok (.shiftMake 0x2A, [0x1E]) ∧
    encode (.shiftBreak 0x2A) = [0xAA] := by decide +kernel

theorem test_decode_table_word : decodeTableWord 8 0xC7 = some (.keypadBreak 0x47) ∧
    decodeTableWord 8 0x100 = none := by decide +kernel

theorem test_fetch_word : step (State.reset.withFetchWord 8 0x3A) = exec (.capsMake 0x3A) State.reset := by
  rw [State.withFetchWord, step_present State.reset _ test_reference_wf rfl]
  exact congrArg (exec · State.reset) (by decide +kernel)

/-! ## Single steps (the names are the vectors of 95_test_vectors.md) -/

/-- The machine after reset with the given register file. -/
def at_ (r : RegFile) : State := { State.reset with regs := r }

/-- The machine right after the reset, with nothing pressed and the counter at `n`. -/
def atEsc (n : Fin 3) : State := at_ { RegFile.reset with esc := n }

/-- The one pulse of a step, if any. -/
inductive Pulse where
  | none
  | inc
  | dec
  | digit
  | trace (m : Modifier) (v : Bool)
  deriving DecidableEq, Repr

/-- What a vector shows of a step: MODSTAT after it, the event with its character, and the pulse. -/
structure Shown where
  modstat : Byte
  kind : OutKind
  char : Byte
  pulse : Pulse
  deriving DecidableEq, Repr

/-- The step on one presented byte, as a vector shows it. -/
def shows (s : State) (raw : Byte) : Option Shown :=
  match step (s.present raw) with
  | .next t => some ⟨modstat t.regs, t.out.outKind, t.out.outChar,
      if t.out.verbInc then .inc else if t.out.verbDec then .dec else if t.out.altDigit then .digit
      else if t.out.traceValid then .trace t.out.traceMod t.out.traceValue else .none⟩
  | .fault _ | .refused _ => none

def ctrlDown : RegFile := { RegFile.reset with ctrl := true }
def altDown : RegFile := { RegFile.reset with alt := true }
def shiftDown : RegFile := { RegFile.reset with shift := true }
def capsOn : RegFile := { RegFile.reset with caps := true }
def numOn : RegFile := { RegFile.reset with num := true }

theorem test_M1_M2_ctrl_make : shows State.reset 0x1D = some ⟨0x01, .none, 0, .trace .ctrl true⟩ ∧
    shows (at_ ctrlDown) 0x1D = some ⟨0x01, .none, 0, .none⟩ := by decide +kernel
theorem test_M3_M4_ctrl_break : shows (at_ ctrlDown) 0x9D = some ⟨0x00, .none, 0, .trace .ctrl false⟩ ∧
    shows State.reset 0x9D = some ⟨0x00, .none, 0, .none⟩ := by decide +kernel
theorem test_M7_alt_make : shows State.reset 0x38 = some ⟨0x02, .none, 0, .trace .alt true⟩ := by decide +kernel
theorem test_M8_alt_break : shows (at_ altDown) 0xB8 = some ⟨0x00, .none, 0, .trace .alt false⟩ := by decide +kernel
theorem test_M5_M9_shift_make : shows (at_ shiftDown) 0x36 = some ⟨0x04, .none, 0, .none⟩ ∧
    shows (atEsc 2) 0x2A = some ⟨0x44, .none, 0, .trace .shift true⟩ := by decide +kernel
theorem test_M6_M10_shift_break : shows (at_ shiftDown) 0xB6 = some ⟨0x00, .none, 0, .trace .shift false⟩ ∧
    shows (at_ { capsOn with esc := 1 }) 0xAA = some ⟨0x28, .none, 0, .none⟩ := by decide +kernel
theorem test_L2_L7_caps_make : shows (at_ capsOn) 0x3A = some ⟨0x00, .none, 0, .none⟩ ∧
    shows (atEsc 2) 0x3A = some ⟨0x48, .none, 0, .none⟩ := by decide +kernel
theorem test_L3_caps_break : shows (at_ capsOn) 0xBA = some ⟨0x08, .none, 0, .none⟩ := by decide +kernel
theorem test_L4_L5_num_make : shows State.reset 0x45 = some ⟨0x10, .none, 0, .none⟩ ∧
    shows (at_ numOn) 0x45 = some ⟨0x00, .none, 0, .none⟩ := by decide +kernel
theorem test_L6_num_break : shows (at_ numOn) 0xC5 = some ⟨0x10, .none, 0, .none⟩ := by decide +kernel
theorem test_S4_S5_X3_key_make : shows (at_ { capsOn with shift := true }) 0x1E = some ⟨0x0C, .char, 0x61, .none⟩ ∧
    shows (at_ capsOn) 0x02 = some ⟨0x08, .char, 0x21, .none⟩ ∧
    shows (atEsc 2) 0x01 = some ⟨0x00, .shutdown, 0, .none⟩ := by decide +kernel
theorem test_A2_V5_U2_key_make : shows (at_ { altDown with esc := 2 }) 0x0B = some ⟨0x42, .none, 0x30, .digit⟩ ∧
    shows (at_ { ctrlDown with esc := 2 }) 0x0D = some ⟨0x01, .none, 0, .inc⟩ ∧
    shows (atEsc 2) 0x3B = some ⟨0x40, .none, 0, .none⟩ := by decide +kernel
theorem test_S9_S10_keypad_make : shows (at_ shiftDown) 0x47 = some ⟨0x04, .none, 0, .none⟩ ∧
    shows (at_ { capsOn with shift := true, num := true }) 0x52 = some ⟨0x1C, .char, 0x30, .none⟩ := by decide +kernel
theorem test_V7_A4_keypad_make : shows (at_ { numOn with ctrl := true }) 0x4A = some ⟨0x11, .none, 0, .dec⟩ ∧
    shows (at_ { numOn with alt := true }) 0x52 = some ⟨0x12, .none, 0x30, .digit⟩ := by decide +kernel
theorem test_X6_key_break : shows (atEsc 2) 0x81 = some ⟨0x40, .none, 0, .none⟩ := by decide +kernel
theorem test_B3_keypad_break : shows (at_ numOn) 0xC7 = some ⟨0x10, .none, 0, .none⟩ := by decide +kernel

/-- The ports of one cycle: whether a byte is accepted, the event, and MODSTAT in the cycle and after it. -/
def cycleShows (s : State) (cycle : InputCycle) : Option (Bool × OutKind × Byte × Byte) :=
  match step { s with inputs := [cycle] } with
  | .next t => some (t.out.outValid, t.out.outKind, t.out.modstat, modstat t.regs)
  | .fault _ | .refused _ => none

theorem test_RS1_reset_wins_over_a_byte :
    cycleShows (at_ { capsOn with num := true, esc := 2 }) { rst := true, inValid := true, inByte := 0x3A } =
      some (false, .none, 0x58, 0x00) := by decide +kernel
theorem test_RS2_no_valid_byte :
    cycleShows (at_ shiftDown) { rst := false, inValid := false, inByte := 0x1E } =
      some (false, .none, 0x04, 0x04) := by decide +kernel
theorem test_RS3_modstat_lags :
    cycleShows State.reset { rst := false, inValid := true, inByte := 0x3A } = some (true, .none, 0x00, 0x08) := by
  decide +kernel

theorem test_P1_program_bytes : programBytes [.shifted 0x1E] = [0x2A, 0x1E, 0xAA, 0x9E] ∧
    programBytes [.repeated 2 0x3A, .brk 0x3A, .byte 0xE0, .make 0x1D] = [0x3A, 0x3A, 0xBA, 0xE0, 0x1D] ∧
    programBytes [.tap 0x01, .chord 0x1D 0x0D] = [0x01, 0x81, 0x1D, 0x0D, 0x8D, 0x9D] := by decide +kernel

theorem test_key_names : characterKeyCode 0x61 = some 0x1E ∧ characterKeyCode 0x71 = some 0x10 ∧
    characterKeyCode 0x31 = some 0x02 ∧ keyNameCode .kpMinus = 0x4A := by decide +kernel

/-- W7: the sink's level at M on an increase, at 0 on a decrease, and below M on an increase. -/
theorem test_W7_sink_clamps :
    (Sink.accept ⟨3, 0⟩ { Outputs.zero with verbInc := true } ⟨3, []⟩).level = 3 ∧
    (Sink.accept ⟨3, 0⟩ { Outputs.zero with verbDec := true } ⟨0, []⟩).level = 0 ∧
    (Sink.accept ⟨3, 0⟩ { Outputs.zero with verbInc := true } ⟨1, []⟩).level = 2 := by decide

/-! ## Witnesses: for each statement with hypotheses, a state and operands that meet them together -/

theorem ready_reset : Ready State.reset := ⟨test_reference_wf, rfl⟩

theorem inv_reset : State.reset.Inv where
  cfg := test_reference_wf
  reset := rfl
  out := { quiet := fun _ => rfl, pulse := by decide, mapped := nofun, char := fun _ => rfl, trace := fun _ => ⟨rfl, rfl⟩,
           status := by decide }

theorem witness_EveryByteIsInExactlyOneClass :
    referenceConfig.Wf ∧ (Instr.keypadBreak 0x53).Wf referenceConfig ∧ encodeByte (.keypadBreak 0x53) = 0xD3 :=
  ⟨test_reference_wf, by decide +kernel, by decide⟩

theorem witness_DecodeInvertsEncode :
    referenceConfig.Wf ∧ (Instr.ctrlMake 0x1D).Wf referenceConfig ∧ (Instr.altBreak 0x38).Wf referenceConfig ∧
    (Instr.shiftMake 0x36).Wf referenceConfig ∧ (Instr.capsMake 0x3A).Wf referenceConfig ∧
    (Instr.numBreak 0x45).Wf referenceConfig ∧ (Instr.keypadMake 0x47).Wf referenceConfig ∧
    (Instr.keyBreak 0x7F).Wf referenceConfig :=
  ⟨test_reference_wf, by decide +kernel, by decide +kernel, by decide +kernel, by decide +kernel, by decide +kernel,
    by decide +kernel, by decide +kernel⟩

theorem witness_ClassificationTakesTheFirstTestThatHolds_members :
    0x1D#7 ∈ referenceConfig.ctrlCodes ∧ (0x38#7 ∉ referenceConfig.ctrlCodes ∧ 0x38#7 ∈ referenceConfig.altCodes) ∧
    (0x36#7 ∉ referenceConfig.ctrlCodes ∧ 0x36#7 ∉ referenceConfig.altCodes ∧ 0x36#7 ∈ referenceConfig.shiftCodes) ∧
    0x1D#8 &&& 0x7F = 0x9D#8 &&& 0x7F ∧
    ¬ Config.SetsDisjoint { referenceConfig with altCodes := [0x1D] } := by decide +kernel

/-- The codes of the CAPS and NUM clauses, each past the tests before it. -/
theorem witness_ClassificationTakesTheFirstTestThatHolds_locks :
    (0x3A#7 ∉ referenceConfig.ctrlCodes ∧ 0x3A#7 ∉ referenceConfig.altCodes ∧ 0x3A#7 ∉ referenceConfig.shiftCodes ∧
      0x3A#7 = referenceConfig.capsCode) ∧
    (0x45#7 ∉ referenceConfig.ctrlCodes ∧ 0x45#7 ∉ referenceConfig.altCodes ∧ 0x45#7 ∉ referenceConfig.shiftCodes ∧
      0x45#7 ≠ referenceConfig.capsCode ∧ 0x45#7 = referenceConfig.numCode) := by decide +kernel

theorem witness_ClassificationTakesTheFirstTestThatHolds_range :
    (referenceConfig.Regular 0x47 ∧ referenceConfig.InKeypad 0x47) ∧
    (referenceConfig.Regular 0x53 ∧ referenceConfig.InKeypad 0x53) ∧
    (referenceConfig.Regular 0x46 ∧ ¬ referenceConfig.InKeypad 0x46) ∧
    (referenceConfig.Regular 0x54 ∧ ¬ referenceConfig.InKeypad 0x54) :=
  ⟨by decide +kernel, by decide +kernel, by decide +kernel, by decide +kernel⟩

theorem witness_PrefixAndControllerBytesAreOrdinaryBytes :
    Ready State.reset ∧ State.reset.cfg.Regular 0x60 ∧
    entry State.reset.cfg (State.reset.regs.shift ^^ State.reset.regs.caps) 0x00 = State.reset.cfg.unmapped := by
  refine ⟨ready_reset, ?_⟩
  decide +kernel

/-- A keypad range that takes in the right SHIFT key, which stays a modifier (00_scope.md R8). -/
theorem witness_OnlyAParameterSetThatFailsACheckIsRefused :
    Config.Wf { referenceConfig with numpadLo := 0x36 } ∧
    0x36#7 ∈ modCodes { referenceConfig with numpadLo := 0x36 } .shift ∧
    Config.InKeypad { referenceConfig with numpadLo := 0x36 } 0x36 := by decide +kernel

theorem witness_modifier_and_lock_classes :
    referenceConfig.Wf ∧ 0x1D#7 ∈ referenceConfig.ctrlCodes ∧ 0x38#7 ∈ referenceConfig.altCodes ∧
    0x2A#7 ∈ referenceConfig.shiftCodes ∧ 0x36#7 ∈ referenceConfig.shiftCodes := by decide +kernel

theorem witness_ModifierAndLockBytesReportNoneAndKeepTheCounter :
    (Instr.numBreak 0x45).keyClass ≠ .key ∧ (Instr.numBreak 0x45).keyClass ≠ .keypad := by decide

/-- A modifier byte on an edge, one without an edge, and a lock byte. -/
theorem witness_ATraceIsDrivenExactlyOnAModifierEdge :
    (∃ t, exec (.altMake 0x38) State.reset = .next t ∧ t.out.traceValid = true) ∧
    (∃ t, exec (.altBreak 0x38) State.reset = .next t ∧ t.out.traceValid = false) ∧
    (∃ t, exec (.capsMake 0x3A) State.reset = .next t ∧ t.out.traceValid = false) :=
  ⟨⟨_, rfl, rfl⟩, ⟨_, rfl, rfl⟩, ⟨_, rfl, rfl⟩⟩

theorem witness_modifier_runs :
    Ready State.reset ∧ 0x2A#7 ∈ modCodes State.reset.cfg .shift ∧ 0x36#7 ∈ modCodes State.reset.cfg .shift ∧
    Ready (at_ shiftDown) ∧ (at_ shiftDown).regs.held .shift = true ∧ State.reset.regs.held .shift = false :=
  ⟨ready_reset, by decide +kernel, by decide +kernel, ready_reset, rfl, rfl⟩

theorem witness_ALatchCountsMakeBytes : Ready (at_ numOn) := ready_reset

/-- The clauses of `ChainResult`, R89 to R95 in order, at the first and last digit and at each counter value. -/
theorem witness_ChainResult_first_clauses :
    (0x00#8 = (at_ altDown).cfg.unmapped) ∧
    (0x30#8 ≠ (at_ altDown).cfg.unmapped ∧ digitCase (at_ altDown) 0x30 ∧ digitCase (at_ altDown) 0x39 ∧
      ¬ digitCase (at_ altDown) 0x2F ∧ ¬ digitCase (at_ altDown) 0x3A) ∧
    (0x1B#8 ≠ (atEsc 1).cfg.unmapped ∧ ¬ digitCase (atEsc 1) 0x1B ∧ 0x1B#8 = (atEsc 1).cfg.escChar ∧
      (2 : Fin 3).val = (atEsc 1).regs.esc.val + 1 ∧ (1 : Fin 3).val = (atEsc 0).regs.esc.val + 1 ∧
      (atEsc 2).regs.esc.val + 1 = 3) := by
  unfold digitCase
  decide +kernel

theorem witness_ChainResult_last_clauses :
    (∀ c ∈ [0x2B#8, 0x3D, 0x2D, 0x5F, 0x61], c ≠ (at_ ctrlDown).cfg.unmapped ∧ ¬ digitCase (at_ ctrlDown) c ∧
      c ≠ (at_ ctrlDown).cfg.escChar) ∧
    (at_ ctrlDown).regs.ctrl = true := by
  unfold digitCase
  decide +kernel

theorem witness_regular_classes :
    referenceConfig.Wf ∧ (referenceConfig.Regular 0x1E ∧ ¬ referenceConfig.InKeypad 0x1E) ∧
    (referenceConfig.Regular 0x47 ∧ referenceConfig.InKeypad 0x47) ∧
    (referenceConfig.Regular 0x53 ∧ referenceConfig.InKeypad 0x53) :=
  ⟨test_reference_wf, by decide +kernel, by decide +kernel, by decide +kernel⟩

theorem witness_regular_bytes :
    (0x7F#8 ≤ 0x7F#8 ∧ 0x7F#8 ∉ [0x1D#8, 0x2A, 0x36, 0x38, 0x3A, 0x45] ∧ ¬ (0x47#8 ≤ 0x7F#8 ∧ 0x7F#8 ≤ 0x53#8)) ∧
    (0x80#8 ≤ 0xD4#8 ∧ 0xD4#8 ∉ [0x9D#8, 0xAA, 0xB6, 0xB8, 0xBA, 0xC5] ∧ ¬ (0xC7#8 ≤ 0xD4#8 ∧ 0xD4#8 ≤ 0xD3#8)) := by
  decide

/-- States of the examples of R97, R98 and R103. -/
theorem witness_regular_examples :
    (State.reset.cfg = referenceConfig ∧ State.reset.regs = RegFile.reset) ∧
    ((at_ numOn).cfg = referenceConfig ∧ (at_ numOn).regs = { RegFile.reset with num := true }) ∧
    ((at_ capsOn).regs.caps = true ∧ (at_ capsOn).regs.shift = false ∧
      (at_ capsOn).regs = { RegFile.reset with caps := true }) ∧
    (at_ { capsOn with shift := true }).regs = { RegFile.reset with caps := true, shift := true } := by decide +kernel

theorem witness_ExactlyOneOfShiftAndCapsGivesTheSecondaryEntry :
    State.reset.cfg.primaryRom[(0x1E#7).toNat]? = some 0x61 ∧ State.reset.regs.shift = State.reset.regs.caps ∧
    (at_ capsOn).cfg.secondaryRom[(0x1E#7).toNat]? = some 0x41 ∧ (at_ capsOn).regs.shift ≠ (at_ capsOn).regs.caps := by
  decide +kernel

/-- Next states in which the digit hook, each verbosity pulse, SHUTDOWN and a character are reported. -/
theorem witness_events :
    (∃ t, exec (.keyMake 0x02) (at_ altDown) = .next t ∧ t.out.altDigit = true) ∧
    (∃ t, exec (.keyMake 0x0D) (at_ ctrlDown) = .next t ∧ t.out.verbInc = true) ∧
    (∃ t, exec (.keyMake 0x0C) (at_ ctrlDown) = .next t ∧ t.out.verbDec = true) ∧
    (∃ t, exec (.keyMake 0x01) (atEsc 2) = .next t ∧ t.out.outKind = .shutdown) ∧
    (∃ t, exec (.keyMake 0x1E) (atEsc 2) = .next t ∧ t.out.outKind = .char ∧ t.regs.esc = 0) :=
  ⟨⟨_, rfl, by decide +kernel⟩, ⟨_, rfl, by decide +kernel⟩, ⟨_, rfl, by decide +kernel⟩, ⟨_, rfl, by decide +kernel⟩,
    ⟨_, rfl, by decide +kernel⟩⟩

/-- X1, X2 and X3 of 95_test_vectors.md, with a key release and a SHIFT press among them, and X7. -/
theorem witness_EveryThirdEscapeOfARunRequestsShutdown :
    Ready State.reset ∧
    escPresses State.reset.cfg State.reset.regs [0x01, 0x81, 0x2A, 0x01, 0x01] = some 3 ∧
    Ready (atEsc 2) ∧ escEffect (atEsc 2).cfg (atEsc 2).regs 0x1E = .clear :=
  ⟨ready_reset, by decide +kernel, ready_reset, by decide +kernel⟩

theorem witness_write_map_and_cycles (rst valid : Bool) (raw : Byte) :
    Ready { State.reset with inputs := [⟨rst, valid, raw⟩] } ∧ State.reset.inputs = [] ∧
    Ready { State.reset with inputs := [] } := ⟨ready_reset, rfl, ready_reset⟩

theorem witness_ModstatIsTheRegisterFileByItsLayout :
    ∃ t, step (State.reset.present 0x3A) = .next t ∧ t.regs ≠ (State.reset.present 0x3A).regs :=
  ⟨toggleLock .caps State.reset, test_fetch_word, by decide⟩

/-- Two machines that differ only in what is not the register file. -/
theorem witness_NothingButTheRegisterFileIsRemembered :
    Ready State.reset ∧ ({ State.reset with out := noneOutputs capsOn } : State).resetDone = true ∧
    ({ State.reset with out := noneOutputs capsOn } : State).cfg = State.reset.cfg ∧
    ({ State.reset with out := noneOutputs capsOn } : State).regs = State.reset.regs ∧
    ({ State.reset with out := noneOutputs capsOn } : State) ≠ State.reset :=
  ⟨ready_reset, rfl, rfl, rfl, by decide +kernel⟩

theorem witness_runs_and_steps : step State.reset = .next (idleCycle State.reset) ∧
    Sys2Proof.core.run 1 State.reset = .next (idleCycle State.reset) ∧
    step (idleCycle State.reset) = .next (idleCycle State.reset) :=
  have h : step State.reset = .next (idleCycle State.reset) := step_of_wf State.reset test_reference_wf
  ⟨h, (run_succ_of_next 0 h).trans rfl, h⟩

theorem witness_ARomReadStaysInsideTheTable :
    referenceConfig.RomsFull ∧ romRead referenceConfig .primary 0x7F = 0x00 ∧ 128 ≤ 128 := by decide +kernel

theorem witness_EveryStepKeepsTheStateLegal :
    State.reset.Inv ∧ step State.reset = .next (idleCycle State.reset) := ⟨inv_reset, witness_runs_and_steps.1⟩

theorem witness_NoStepBeforeTheFirstReset :
    ({ State.reset with resetDone := false, inputs := [⟨true, false, 0x00⟩] } : State).cfg.Wf ∧
    ({ State.reset with resetDone := false, inputs := [⟨true, false, 0x00⟩] } : State).resetDone = false ∧
    ({ State.reset with resetDone := false, inputs := [⟨true, false, 0x00⟩] } : State).inputs = [⟨true, false, 0x00⟩] :=
  ⟨test_reference_wf, rfl, rfl⟩

theorem witness_AHeldModifierStaysSetUntilABreakOfItsSet :
    Ready (at_ shiftDown) ∧ (at_ shiftDown).regs.held .shift = true ∧
    ∀ raw ∈ [0x1E#8, 0x9E], ∀ k ∈ modCodes (at_ shiftDown).cfg .shift, raw ≠ breakByte k :=
  ⟨ready_reset, rfl, by decide +kernel⟩

theorem witness_ThreeMakeBytesOfAHeldEscapeKeyRequestShutdown :
    Ready State.reset ∧ State.reset.cfg.Regular 0x01 ∧ State.reset.regs.esc = 0 ∧
    State.reset.cfg.escChar ≠ State.reset.cfg.unmapped ∧ ¬ digitCase State.reset State.reset.cfg.escChar ∧
    lookedUp State.reset (decodeByte State.reset.cfg (makeByte 0x01)) = some State.reset.cfg.escChar :=
  ⟨ready_reset, by decide +kernel, rfl, by decide, by unfold digitCase; decide, by decide +kernel⟩

theorem witness_host_characters :
    lookedUp (at_ ctrlDown) (decodeByte (at_ ctrlDown).cfg 0x0D) = some 0x3D ∧
    lookedUp (at_ ctrlDown) (decodeByte (at_ ctrlDown).cfg 0x0C) = some 0x2D ∧
    0x3D#8 ≠ (at_ ctrlDown).cfg.unmapped ∧ 0x2D#8 ≠ (at_ ctrlDown).cfg.escChar := by decide +kernel

/-- CTRL held with `=` and with `-`, in a run that has not ended; and one that has. -/
theorem witness_host (p : SinkParams) :
    let y : KbdSystem := { KbdSystem.reset p with machine := at_ ctrlDown }
    Ready y.machine ∧ y.terminated = false ∧ y.machine.regs.ctrl = true ∧
    lookedUp y.machine (decodeByte y.machine.cfg 0x0D) = some 0x3D ∧
    lookedUp y.machine (decodeByte y.machine.cfg 0x0C) = some 0x2D ∧
    0x3D#8 ≠ y.machine.cfg.unmapped ∧ 0x2D#8 ≠ y.machine.cfg.escChar ∧
    ({ y with terminated := true } : KbdSystem).terminated = true :=
  ⟨ready_reset, rfl, rfl, witness_host_characters.1, witness_host_characters.2.1, witness_host_characters.2.2.1,
    witness_host_characters.2.2.2, rfl⟩

end Sys2Proof.Tests
end

section
/-! SUPPORT. The register file and its view in MODSTAT, what one instruction and one cycle leave unchanged, and the proofs of the
statements of 10_state.md. -/

namespace Sys2Proof.Machine

/-! ## MODSTAT -/

theorem modstat_flag_bits (r : RegFile) :
    (modstat r).getLsbD 0 = r.ctrl ∧ (modstat r).getLsbD 1 = r.alt ∧ (modstat r).getLsbD 2 = r.shift ∧
    (modstat r).getLsbD 3 = r.caps ∧ (modstat r).getLsbD 4 = r.num := by
  simp only [modstat, BitVec.getLsbD_append]
  simp

theorem modstat_bit_seven (r : RegFile) : (modstat r).getLsbD 7 = false := by
  simp only [modstat, BitVec.getLsbD_append]
  simp

theorem modstat_esc_field (r : RegFile) : (modstat r).extractLsb' 5 2 = BitVec.ofNat 2 r.esc.val := by
  ext i hi
  simp only [BitVec.getElem_extractLsb', modstat, BitVec.getLsbD_append]
  interval_cases i <;> simp

/-- The counter is at most 2, so two bits hold its value (10_state.md R26, R27). -/
theorem modstat_esc_field_toNat (r : RegFile) : ((modstat r).extractLsb' 5 2).toNat = r.esc.val := by
  rw [modstat_esc_field, BitVec.toNat_ofNat]
  omega

theorem modstat_esc_field_ne_three (r : RegFile) : (modstat r).extractLsb' 5 2 ≠ 3#2 := by
  intro h
  have hesc : 3 = r.esc.val := by simpa [h] using modstat_esc_field_toNat r
  omega

theorem modstat_reset : modstat .reset = 0x00 := by decide

/-! ## What an instruction reads and writes -/

/-- An operation that ends in one `commit` of registers and outputs computed from the parameters and the register file alone
(10_state.md R33, 20_memory.md R53). -/
def CommitsFromRegs (op : State → State) : Prop :=
  ∃ (regs : Config → RegFile → RegFile) (out : Config → RegFile → Outputs),
    ∀ s, op s = commit (regs s.cfg s.regs) (out s.cfg s.regs) s

theorem momentary_commitsFromRegs (m : Modifier) (v : Bool) : CommitsFromRegs (momentary m v) :=
  ⟨fun _ r => r.setHeld v m, fun _ r => traceOutputs r m v, fun _ => rfl⟩

theorem toggleLock_commitsFromRegs (l : Lock) : CommitsFromRegs (toggleLock l) :=
  ⟨fun _ r => r.toggle l, fun _ r => noneOutputs r, fun _ => rfl⟩

theorem noEffect_commitsFromRegs : CommitsFromRegs noEffect :=
  ⟨fun _ r => r, fun _ r => noneOutputs r, fun _ => rfl⟩

/-- The table a regular key reads is selected by the register file (41_regular_keys.md R86, R87). -/
theorem regularMake_commitsFromRegs (select : RegFile → Table) (k : KeyCode) :
    CommitsFromRegs fun s => regularMake (select s.regs) k s :=
  ⟨fun c r => { r with esc := chainEsc (chainEnd c r (romRead c (select r) k)) r.esc },
    fun c r => chainOutputs (chainEnd c r (romRead c (select r) k)) r (romRead c (select r) k), fun _ => rfl⟩

/-- Every instruction answers a next state by an operation on the register file alone. -/
theorem exec_commitsFromRegs (i : Instr) : ∃ op, CommitsFromRegs op ∧ ∀ s, exec i s = .next (op s) := by
  cases i with
  | ctrlMake | altMake | shiftMake | ctrlBreak | altBreak | shiftBreak =>
    exact ⟨_, momentary_commitsFromRegs _ _, fun _ => rfl⟩
  | capsMake | numMake => exact ⟨_, toggleLock_commitsFromRegs _, fun _ => rfl⟩
  | capsBreak | numBreak | keyBreak | keypadBreak => exact ⟨_, noEffect_commitsFromRegs, fun _ => rfl⟩
  | keyMake k => exact ⟨_, regularMake_commitsFromRegs selectKey k, fun _ => rfl⟩
  | keypadMake k => exact ⟨_, regularMake_commitsFromRegs selectKeypad k, fun _ => rfl⟩

/-- An instruction answers the state it began in with other registers and outputs. -/
theorem exec_eq_commit (i : Instr) (s : State) : ∃ r o, exec i s = .next (commit r o s) := by
  obtain ⟨op, ⟨regs, out, hop⟩, hexec⟩ := exec_commitsFromRegs i
  exact ⟨_, _, by rw [hexec, hop]⟩

/-- In states that agree in parameters and registers an instruction commits the same registers and outputs. -/
theorem exec_eq_commit_same (i : Instr) {s s' : State} (hcfg : s'.cfg = s.cfg) (hregs : s'.regs = s.regs) :
    ∃ r o, exec i s = .next (commit r o s) ∧ exec i s' = .next (commit r o s') := by
  obtain ⟨op, ⟨regs, out, hop⟩, hexec⟩ := exec_commitsFromRegs i
  exact ⟨_, _, by rw [hexec, hop], by rw [hexec, hop, hcfg, hregs]⟩

theorem exec_cfg {i : Instr} {s t : State} (h : exec i s = .next t) : t.cfg = s.cfg := by
  obtain ⟨r, o, he⟩ := exec_eq_commit i s
  obtain rfl : commit r o s = t := Host.Outcome.next.inj (he.symm.trans h)
  rfl

/-! ## What a cycle reads and writes -/

/-- An idle cycle is the only one the host need not present (log entry 1). -/
theorem inputs_eq_currentCycle_cons {s : State} (h : (currentCycle s).rst = true ∨ (currentCycle s).inValid = true) :
    s.inputs = currentCycle s :: s.inputs.tail := by
  unfold currentCycle at h ⊢
  cases hin : s.inputs with
  | nil => simp [hin] at h
  | cons cycle rest => rfl

theorem currentCycle_of_inputs_cons {s : State} {cycle : InputCycle} {rest : List InputCycle}
    (h : s.inputs = cycle :: rest) : currentCycle s = cycle := by
  simp [currentCycle, h]

theorem takeCycle_of_inputs_cons {s : State} {cycle : InputCycle} {rest : List InputCycle}
    (h : s.inputs = cycle :: rest) : takeCycle s = { s with inputs := rest } := by
  simp [takeCycle, h]

theorem step_cfg {s t : State} (h : step s = .next t) : t.cfg = s.cfg := by
  obtain ⟨-, ⟨-, rfl⟩ | ⟨-, -, -, hexec⟩ | ⟨-, -, -, rfl⟩⟩ := step_cases h
  · rfl
  · exact (exec_cfg hexec).trans (takeCycle_cfg s)
  · rfl

/-- A step that changes the register file took a reset cycle or accepted a byte, and the host presented it. -/
theorem presented_of_step_regs_ne {s t : State} (h : step s = .next t) (hne : t.regs ≠ s.regs) :
    ∃ (cycle : InputCycle) (rest : List InputCycle), s.inputs = cycle :: rest ∧
      ((cycle.rst = true ∧ t.regs = RegFile.reset) ∨ (cycle.rst = false ∧ cycle.inValid = true)) := by
  obtain ⟨-, ⟨hrst, rfl⟩ | ⟨hrst, -, hvalid, -⟩ | ⟨-, -, -, rfl⟩⟩ := step_cases h
  · exact ⟨_, _, inputs_eq_currentCycle_cons (.inl hrst), .inl ⟨hrst, rfl⟩⟩
  · exact ⟨_, _, inputs_eq_currentCycle_cons (.inr hvalid), .inr ⟨hrst, hvalid⟩⟩
  · exact absurd rfl hne

theorem run_cfg {n : Nat} {s t : State} (h : Sys2Proof.core.run n s = .next t) : t.cfg = s.cfg := by
  induction n generalizing s with
  | zero => obtain rfl : s = t := Host.Outcome.next.inj h; rfl
  | succ n ih =>
    obtain ⟨u, hstep, hrun⟩ := step_of_run_succ h
    exact (ih hrun).trans (step_cfg hstep)

/-- A run of at least one step that answers a state had a well-formed parameter set. -/
theorem wf_of_run {n : Nat} {s t : State} (hn : 0 < n) (h : Sys2Proof.core.run n s = .next t) : s.cfg.Wf := by
  cases n with
  | zero => omega
  | succ n =>
    obtain ⟨u, hstep, -⟩ := step_of_run_succ h
    exact (step_cases hstep).1

/-! ## The statements -/

/-- Settles O39: the layout bit by bit, and the register file moves only in presented cycles. -/
theorem modstatIsTheRegisterFileByItsLayout : Obligations.ModstatIsTheRegisterFileByItsLayout := by
  refine ⟨fun r => ?_, modstat_reset, fun s t => presented_of_step_regs_ne⟩
  obtain ⟨hctrl, halt, hshift, hcaps, hnum⟩ := modstat_flag_bits r
  exact ⟨hctrl, halt, hshift, hcaps, hnum, modstat_esc_field_toNat r, modstat_esc_field_ne_three r, modstat_bit_seven r⟩

/-- Settles O41: both machines run the one decoded instruction, which reads the parameters and the registers alone. -/
theorem nothingButTheRegisterFileIsRemembered : Obligations.NothingButTheRegisterFileIsRemembered := by
  intro s s' raw ⟨hwf, hdone⟩ hdone' hcfg hregs
  obtain ⟨r, o, h, h'⟩ := exec_eq_commit_same (decodeByte s.cfg raw) hcfg hregs
  have hstep : step (s.present raw) = .next (commit r o s) := (step_present s raw hwf hdone).trans h
  have hstep' : step (s'.present raw) = .next (commit r o s') := by
    rw [step_present s' raw (hcfg ▸ hwf) hdone', hcfg, h']
  exact ⟨_, _, hstep, hstep', rfl, rfl⟩

/-- Settles O42: every step keeps the parameters, and a first step is only taken under a well-formed set. -/
theorem noRunChangesTheParameters : Obligations.NoRunChangesTheParameters := by
  intro n s t h
  have hcfg : t.cfg = s.cfg := run_cfg h
  refine ⟨hcfg, fun hn => ?_⟩
  obtain ⟨-, -, hfull, -⟩ := wf_of_run hn h
  rw [hcfg]
  exact hfull

/-- Settles O40 by the fields of the reset state. -/
theorem resetLeavesEveryFieldClear : Obligations.ResetLeavesEveryFieldClear :=
  ⟨rfl, rfl, rfl, rfl, rfl, rfl, modstat_reset⟩

/-- Settles O49: the presented cycle is taken from the input, and the instruction leaves the rest of the input alone. -/
theorem aStepRunsTheDecodedInstruction : Obligations.AStepRunsTheDecodedInstruction := by
  intro s raw rest ⟨hwf, hdone⟩ hin
  have hstep : step s = exec (decodeByte s.cfg raw) { s with inputs := rest } := by
    rw [step_of_wf s hwf, currentCycle_of_inputs_cons hin, takeCycle_of_inputs_cons hin]
    simp [runCycle, hdone]
  obtain ⟨r, o, hexec⟩ := exec_eq_commit (decodeByte s.cfg raw) { s with inputs := rest }
  exact ⟨hstep, rfl, _, hstep.trans hexec, rfl⟩

end Sys2Proof.Machine
end

section
/-! SUPPORT. The fields of a decoded instruction, what the bytes of a regular key do, and the proofs of the statements of
30_encoding.md. -/

namespace Sys2Proof

open Machine

/-! ## The byte and the decoded instruction -/

/-- The release flag as the source tests it, `raw & 0x80` (30_encoding.md R56). -/
theorem releaseFlag_eq_false_iff (raw : Byte) : releaseFlag raw = false ↔ raw &&& 0x80 = 0 := by
  revert raw; decide +kernel

/-- The key code as the source takes it, `raw & 0x7F` (30_encoding.md R56). -/
theorem keyCode_toNat (raw : Byte) : (keyCode raw).toNat = (raw &&& 0x7F).toNat := by
  simp only [keyCode, BitVec.extractLsb'_toNat, Nat.shiftRight_zero, BitVec.toNat_and]
  exact (Nat.and_two_pow_sub_one_eq_mod raw.toNat 7).symm

theorem makeByte_eq_setWidth (k : KeyCode) : makeByte k = k.setWidth 8 := by
  revert k; decide

theorem breakByte_eq_or (k : KeyCode) : breakByte k = k.setWidth 8 ||| 0x80 := by
  revert k; decide

@[simp] theorem decodeByte_released (c : Config) (raw : Byte) : (decodeByte c raw).released = releaseFlag raw :=
  assemble_released _ _ _

@[simp] theorem decodeByte_code (c : Config) (raw : Byte) : (decodeByte c raw).code = keyCode raw :=
  assemble_code _ _ _

@[simp] theorem decodeByte_keyClass (c : Config) (raw : Byte) :
    (decodeByte c raw).keyClass = classify c (keyCode raw) :=
  assemble_keyClass _ _ _

theorem decodeByte_wf (c : Config) (raw : Byte) : (decodeByte c raw).Wf c := by
  rw [Instr.Wf, decodeByte_keyClass, decodeByte_code]
  exact admits_classify c (keyCode raw)

theorem encodeByte_decodeByte (c : Config) (raw : Byte) : encodeByte (decodeByte c raw) = raw := by
  rw [encodeByte, decodeByte_released, decodeByte_code]
  exact byte_eq_fields raw

/-- A regular code is a keypad code or a key code (30_encoding.md R57). -/
theorem classify_of_regular {c : Config} {k : KeyCode} (h : c.Regular k) :
    classify c k = .key ∨ classify c k = .keypad := by
  obtain ⟨hctrl, halt, hshift, hcaps, hnum⟩ := h
  by_cases hpad : c.InKeypad k
  · exact .inr (by simp [classify, hctrl, halt, hshift, hcaps, hnum, hpad])
  · exact .inl (by simp [classify, hctrl, halt, hshift, hcaps, hnum, hpad])

end Sys2Proof

namespace Sys2Proof.Machine

/-! ## The outputs of an accepted byte -/

@[simp] theorem traceOutputs_outValid (r : RegFile) (m : Modifier) (v : Bool) :
    (traceOutputs r m v).outValid = true := by
  obtain ⟨-, h⟩ | ⟨-, h⟩ := traceOutputs_cases r m v <;> rw [h] <;> rfl

@[simp] theorem chainOutputs_outValid (e : ChainEnd) (r : RegFile) (ch : Byte) :
    (chainOutputs e r ch).outValid = true := by
  cases e with
  | escape => simp only [chainOutputs]; split <;> rfl
  | unmapped | altDigit | verbInc | verbDec | char => rfl

/-- Every instruction answers a next state that reports an event (30_encoding.md R61, 60_exceptions.md R112). -/
theorem exec_outValid (i : Instr) (s : State) : ∃ t : State, exec i s = .next t ∧ t.out.outValid = true := by
  obtain ⟨m, -, h⟩ | ⟨l, -, -, h⟩ | ⟨-, -, h⟩ | ⟨-, -, h⟩ | ⟨-, h⟩ | ⟨-, h⟩ := exec_cases i s
  · exact ⟨_, h, traceOutputs_outValid _ _ _⟩
  · exact ⟨_, h, rfl⟩
  · exact ⟨_, h, rfl⟩
  · exact ⟨_, h, rfl⟩
  · exact ⟨_, h, chainOutputs_outValid _ _ _⟩
  · exact ⟨_, h, chainOutputs_outValid _ _ _⟩

/-! ## Bytes without an effect -/

theorem noEffect_eq_quiet (s : State) : noEffect s = { s with out := quiet s.regs } := rfl

/-- The read of a key outside the keypad range, by its select signal (41_regular_keys.md R87, R88). -/
theorem romRead_selectKey (c : Config) (r : RegFile) (k : KeyCode) :
    romRead c (selectKey r) k = entry c (r.shift ^^ r.caps) k := by
  rw [romRead_eq_getD, selectKey, entry]
  cases r.shift ^^ r.caps <;> rfl

/-- An unmapped entry ends the chain at once (41_regular_keys.md R89). -/
theorem regularMake_of_unmapped {t : Table} {k : KeyCode} {s : State} (h : romRead s.cfg t k = s.cfg.unmapped) :
    regularMake t k s = noEffect s :=
  regularMake_of_chainEnd t k s s.cfg.unmapped .unmapped h (if_pos rfl)

/-- A break byte of a regular key has no effect (41_regular_keys.md R99, R100). -/
theorem exec_decodeByte_breakByte_of_regular {s : State} {k : KeyCode} (h : s.cfg.Regular k) :
    exec (decodeByte s.cfg (breakByte k)) s = .next (noEffect s) := by
  rw [decodeByte, keyCode_breakByte, releaseFlag_breakByte]
  obtain hkey | hpad := classify_of_regular h
  · rw [hkey]; rfl
  · rw [hpad]; rfl

/-- In a ready state a byte commits registers and outputs, the same ones after a byte without an effect. -/
theorem step_present_noEffect {s : State} (raw : Byte) (hs : Ready s) :
    ∃ t : State, step (s.present raw) = .next t ∧ step ((noEffect s).present raw) = .next t := by
  obtain ⟨hwf, hdone⟩ := hs
  obtain ⟨r, o, h, h'⟩ := exec_eq_commit_same (s := s) (s' := noEffect s) (decodeByte s.cfg raw) rfl rfl
  exact ⟨commit r o s, (step_present s raw hwf hdone).trans h,
    (step_present (noEffect s) raw hwf hdone).trans h'⟩

/-- A break byte of a regular key in front of another byte adds one NONE and changes nothing else (30_encoding.md R64). -/
theorem runBytes_breakByte_cons_of_regular {s : State} {k : KeyCode} (raw : Byte) (hs : Ready s)
    (hk : s.cfg.Regular k) : ∃ (t : State) (o : Outputs),
      runBytes [raw] s = .next (t, [o]) ∧ runBytes [breakByte k, raw] s = .next (t, [quiet s.regs, o]) := by
  have hbreak : step (s.present (breakByte k)) = .next (noEffect s) :=
    (step_present s _ hs.1 hs.2).trans (exec_decodeByte_breakByte_of_regular hk)
  obtain ⟨t, h, h'⟩ := step_present_noEffect raw hs
  exact ⟨t, t.out, runBytes_cons_of_next h rfl, runBytes_cons_of_next hbreak (runBytes_cons_of_next h' rfl)⟩

/-- The 256 bytes one by one (30_encoding.md R60). -/
theorem decodeByte_referenceConfig (raw : Byte) : decodeByte referenceConfig raw = tabulated raw := by
  revert raw; decide +kernel

/-! ## The statements -/

/-- Settles O4: a byte's code meets the condition of the class it is given, its two fields make it up again, and each shape of
an instruction's effect drives `out_valid`. -/
theorem noByteIsIllegalAndNoneTraps : Obligations.NoByteIsIllegalAndNoneTraps := fun c raw =>
  ⟨decodeByte_wf c raw, encodeByte_decodeByte c raw, exec_outValid (decodeByte c raw)⟩

/-- Settles O7: the named bytes stand in the reference table, and 0xE0 is the break byte of code 0x60, which changes only the
outputs when that code is regular. -/
theorem prefixAndControllerBytesAreOrdinaryBytes : Obligations.PrefixAndControllerBytesAreOrdinaryBytes := by
  refine ⟨?_, fun k s => congrArg Host.Outcome.next (noEffect_eq_quiet s), ?_, fun s hentry => ?_, ?_, fun s raw hs hreg => ?_⟩
  · simp only [decodeByte_referenceConfig]
    decide
  · exact decodeByte_referenceConfig 0x00
  · have hread : romRead s.cfg (selectKey s.regs) 0x00 = s.cfg.unmapped := (romRead_selectKey _ _ _).trans hentry
    exact congrArg Host.Outcome.next (regularMake_of_unmapped hread)
  · exact decodeByte_referenceConfig 0xAA
  · exact runBytes_breakByte_cons_of_regular (k := 0x60) raw hs hreg

/-- Settles O1: the decoded instruction carries the byte's two fields, which are the source's masks of it. -/
theorem bitSevenIsTheReleaseFlagAndTheRestIsTheCode : Obligations.BitSevenIsTheReleaseFlagAndTheRestIsTheCode := by
  refine ⟨fun c raw => ⟨?_, ?_, ?_⟩, fun c k => ⟨makeByte_eq_setWidth k, breakByte_eq_or k, ?_, ?_⟩⟩
  · rw [decodeByte_released]
    exact releaseFlag_eq_false_iff raw
  · rw [decodeByte_code]
    exact keyCode_toNat raw
  · rw [decodeByte_keyClass, decodeByte_code]
  · rw [decodeByte_code, keyCode_makeByte]
  · rw [decodeByte_code, keyCode_breakByte]

/-- Settles O6: the parameters are the listed ones, and every byte decodes as its row of the table says. -/
theorem referenceBytesDecodeAsTabulated : Obligations.ReferenceBytesDecodeAsTabulated :=
  ⟨rfl, rfl, rfl, rfl, rfl, rfl, rfl, decodeByte_referenceConfig⟩

end Sys2Proof.Machine
end

section
/-! SUPPORT. What the bytes of the modifier and lock keys do, which of them drive a trace, and the proofs of the statements of
40_modifier_keys.md. -/

namespace Sys2Proof

open Machine

/-! ## Decoding the bytes of a modifier or lock key -/

theorem decodeByte_makeByte_of_admits {c : Config} (hc : c.Wf) (kc : KeyClass) {k : KeyCode} (h : kc.Admits c k) :
    decodeByte c (makeByte k) = assemble kc false k := by
  rw [decodeByte, keyCode_makeByte, releaseFlag_makeByte, classify_of_admits c hc k kc h]

theorem decodeByte_breakByte_of_admits {c : Config} (hc : c.Wf) (kc : KeyClass) {k : KeyCode} (h : kc.Admits c k) :
    decodeByte c (breakByte k) = assemble kc true k := by
  rw [decodeByte, keyCode_breakByte, releaseFlag_breakByte, classify_of_admits c hc k kc h]

theorem admits_mod_iff {c : Config} {m : Modifier} {k : KeyCode} :
    (KeyClass.mod m).Admits c k ↔ k ∈ modCodes c m := by
  cases m <;> rfl

theorem admits_lockCode (c : Config) (l : Lock) : (KeyClass.lock l).Admits c (lockCode c l) := by
  cases l <;> rfl

end Sys2Proof

namespace Sys2Proof.Machine

/-! ## The meaning of a modifier or lock byte -/

theorem exec_assemble_mod (m : Modifier) (released : Bool) (k : KeyCode) (s : State) :
    exec (assemble (.mod m) released k) s = .next (momentary m (!released) s) := by
  cases m <;> cases released <;> rfl

theorem exec_assemble_lock (l : Lock) (released : Bool) (k : KeyCode) (s : State) :
    exec (assemble (.lock l) released k) s = .next (if released then noEffect s else toggleLock l s) := by
  cases l <;> cases released <;> rfl

/-- A momentary modifier's byte writes 1 for a make and 0 for a break (40_modifier_keys.md R72-R77). -/
theorem exec_of_mod {i : Instr} {m : Modifier} (h : i.keyClass = .mod m) (s : State) :
    exec i s = .next (momentary m (!i.released) s) := by
  rw [← exec_assemble_mod m i.released i.code s, ← h, assemble_of_fields]

/-- A lock key's make byte inverts its latch and its break byte has no effect (40_modifier_keys.md R78-R81). -/
theorem exec_of_lock {i : Instr} {l : Lock} (h : i.keyClass = .lock l) (s : State) :
    exec i s = .next (if i.released then noEffect s else toggleLock l s) := by
  rw [← exec_assemble_lock l i.released i.code s, ← h, assemble_of_fields]

/-! ## The fields a modifier or lock byte writes -/

@[simp] theorem latch_setHeld (r : RegFile) (v : Bool) (m : Modifier) (l : Lock) :
    latch (r.setHeld v m) l = latch r l := by
  cases l
  · exact setHeld_caps r v m
  · exact setHeld_num r v m

@[simp] theorem latch_toggle (r : RegFile) (l : Lock) : latch (r.toggle l) l = !latch r l := by
  cases l <;> rfl

theorem latch_toggle_of_ne (r : RegFile) {l n : Lock} (h : n ≠ l) : latch (r.toggle l) n = latch r n := by
  cases l <;> cases n
  · exact absurd rfl h
  · rfl
  · rfl
  · exact absurd rfl h

/-- A momentary modifier's step as the rules state it: the trace is driven when the bit held the other value
(40_modifier_keys.md R71-R77). -/
theorem momentary_eq (m : Modifier) (v : Bool) (s : State) :
    momentary m v s = { s with
      regs := s.regs.setHeld v m,
      out := if s.regs.held m = !v then traced s.regs m v else quiet s.regs } := by
  have hout : traceOutputs s.regs m v = if s.regs.held m = !v then traced s.regs m v else quiet s.regs := by
    obtain ⟨hheld, h⟩ | ⟨hheld, h⟩ := traceOutputs_cases s.regs m v
    · rw [h, hheld, if_neg (by simp)]; rfl
    · rw [h, if_pos (Bool.eq_not.2 hheld)]; rfl
  rw [momentary, hout]
  rfl

theorem toggleLock_eq (l : Lock) (s : State) :
    toggleLock l s = { s with regs := s.regs.toggle l, out := quiet s.regs } := rfl

/-! ## The outputs of a modifier or lock byte -/

/-- The event NONE with `out_char` 0x00 and no pulse but, perhaps, a trace (40_modifier_keys.md R70). -/
def Outputs.ReportsNone (o : Outputs) : Prop :=
  o.outKind = .none ∧ o.outChar = 0x00 ∧ o.verbInc = false ∧ o.verbDec = false ∧ o.altDigit = false

theorem noneOutputs_reportsNone (r : RegFile) : (noneOutputs r).ReportsNone := ⟨rfl, rfl, rfl, rfl, rfl⟩

theorem traceOutputs_reportsNone (r : RegFile) (m : Modifier) (v : Bool) : (traceOutputs r m v).ReportsNone := by
  obtain ⟨-, h⟩ | ⟨-, h⟩ := traceOutputs_cases r m v
  · rw [h]; exact noneOutputs_reportsNone r
  · rw [h]; exact ⟨rfl, rfl, rfl, rfl, rfl⟩

theorem traceOutputs_traceValid_iff (r : RegFile) (m : Modifier) (v : Bool) :
    (traceOutputs r m v).traceValid = true ↔ r.held m ≠ v := by
  obtain ⟨hheld, h⟩ | ⟨hheld, h⟩ := traceOutputs_cases r m v <;> simp [h, hheld]

theorem traceOutputs_names_edge {r : RegFile} {m : Modifier} {v : Bool} (hne : r.held m ≠ v) :
    (traceOutputs r m v).traceMod = m ∧ (traceOutputs r m v).traceValue = v := by
  rw [traceOutputs, if_neg hne]
  exact ⟨rfl, rfl⟩

@[simp] theorem chainOutputs_traceValid (e : ChainEnd) (r : RegFile) (ch : Byte) :
    (chainOutputs e r ch).traceValid = false := by
  cases e with
  | escape => simp only [chainOutputs]; split <;> rfl
  | unmapped | altDigit | verbInc | verbDec | char => rfl

/-- Only a momentary modifier's byte drives a trace (40_modifier_keys.md R71). -/
theorem exec_traceValid_of_not_mod {i : Instr} {s t : State} (hi : ∀ m, i.keyClass ≠ .mod m)
    (h : exec i s = .next t) : t.out.traceValid = false := by
  obtain ⟨m, hm, -⟩ | ⟨l, -, -, he⟩ | ⟨-, -, he⟩ | ⟨-, -, he⟩ | ⟨-, he⟩ | ⟨-, he⟩ := exec_cases i s
  · exact absurd hm (hi m)
  all_goals obtain rfl := Host.Outcome.next.inj (he.symm.trans h)
  · rfl
  · rfl
  · rfl
  · exact chainOutputs_traceValid _ _ _
  · exact chainOutputs_traceValid _ _ _

/-! ## Steps on the bytes of one key -/

theorem step_present_makeByte_of_mod {s : State} {m : Modifier} {k : KeyCode} (hs : Ready s)
    (hk : k ∈ modCodes s.cfg m) : step (s.present (makeByte k)) = .next (momentary m true s) := by
  rw [step_present s _ hs.1 hs.2, decodeByte_makeByte_of_admits hs.1 (.mod m) (admits_mod_iff.2 hk)]
  exact exec_assemble_mod m false k s

theorem step_present_breakByte_of_mod {s : State} {m : Modifier} {k : KeyCode} (hs : Ready s)
    (hk : k ∈ modCodes s.cfg m) : step (s.present (breakByte k)) = .next (momentary m false s) := by
  rw [step_present s _ hs.1 hs.2, decodeByte_breakByte_of_admits hs.1 (.mod m) (admits_mod_iff.2 hk)]
  exact exec_assemble_mod m true k s

/-- The make or the break byte of a lock key. -/
def lockByte (c : Config) (l : Lock) (pressed : Bool) : Byte :=
  if pressed then makeByte (lockCode c l) else breakByte (lockCode c l)

theorem decodeByte_lockByte {c : Config} (hc : c.Wf) (l : Lock) (pressed : Bool) :
    decodeByte c (lockByte c l pressed) = assemble (.lock l) (!pressed) (lockCode c l) := by
  cases pressed
  · exact decodeByte_breakByte_of_admits hc (.lock l) (admits_lockCode c l)
  · exact decodeByte_makeByte_of_admits hc (.lock l) (admits_lockCode c l)

theorem step_present_lockByte {s : State} (hs : Ready s) (l : Lock) (pressed : Bool) :
    step (s.present (lockByte s.cfg l pressed)) = .next (if pressed then toggleLock l s else noEffect s) := by
  rw [step_present s _ hs.1 hs.2, decodeByte_lockByte hs.1, exec_assemble_lock]
  cases pressed <;> rfl

/-- A lock byte's step inverts the latch on a make, and the machine can accept the next byte under the same parameters. -/
theorem step_present_lockByte_latch {s : State} (hs : Ready s) (l : Lock) (pressed : Bool) :
    ∃ t : State, step (s.present (lockByte s.cfg l pressed)) = .next t ∧ Ready t ∧ t.cfg = s.cfg ∧
      latch t.regs l = (latch s.regs l ^^ pressed) := by
  refine ⟨_, step_present_lockByte hs l pressed, ?_⟩
  cases pressed with
  | true => exact ⟨hs, rfl, by simp [toggleLock]⟩
  | false => exact ⟨hs, rfl, by simp [noEffect]⟩

theorem count_true_cons_odd (p : Bool) (ps : List Bool) :
    decide ((p :: ps).count true % 2 = 1) = (p ^^ decide (ps.count true % 2 = 1)) := by
  cases p with
  | true =>
    rw [List.count_cons_self, Bool.true_xor, ← decide_not, decide_eq_decide]
    omega
  | false => simp

/-- A run of one lock key's bytes inverts the latch once a make byte (40_modifier_keys.md R83). -/
theorem runBytes_lockByte_latch (l : Lock) (presses : List Bool) {s : State} (hs : Ready s) :
    ∃ (t : State) (outs : List Outputs), runBytes (presses.map (lockByte s.cfg l)) s = .next (t, outs) ∧
      latch t.regs l = (latch s.regs l ^^ decide (presses.count true % 2 = 1)) := by
  induction presses generalizing s with
  | nil => exact ⟨s, [], rfl, by simp⟩
  | cons p ps ih =>
    obtain ⟨u, hstep, hu, hcfg, hlatch⟩ := step_present_lockByte_latch hs l p
    obtain ⟨t, outs, hrun, ht⟩ := ih hu
    rw [hcfg] at hrun
    refine ⟨t, u.out :: outs, runBytes_cons_of_next hstep hrun, ?_⟩
    rw [ht, hlatch, count_true_cons_odd, Bool.xor_assoc]

/-! ## The statements -/

/-- Settles O20: neither shape of effect reads the tables, and each writes at most the field of its own modifier or lock. -/
theorem modifierAndLockBytesReportNoneAndKeepTheCounter :
    Obligations.ModifierAndLockBytesReportNoneAndKeepTheCounter := by
  intro i hkey hpad s
  cases hi : i.keyClass with
  | mod m =>
    obtain ⟨hkind, hchar, hinc, hdec, hdigit⟩ := traceOutputs_reportsNone s.regs m (!i.released)
    exact ⟨_, exec_of_mod hi s, fun _ _ => exec_of_mod hi _, hkind, hchar, setHeld_esc _ _ _, hinc, hdec, hdigit,
      fun n hn => setHeld_held_of_ne _ _ _ _ fun h => hn (h ▸ rfl), fun l _ => latch_setHeld _ _ _ l⟩
  | lock l =>
    obtain ⟨hkind, hchar, hinc, hdec, hdigit⟩ := noneOutputs_reportsNone s.regs
    have hexec := exec_of_lock hi
    cases hr : i.released with
    | true =>
      simp only [hr, if_true] at hexec
      exact ⟨_, hexec s, fun _ _ => hexec _, hkind, hchar, rfl, hinc, hdec, hdigit, fun _ _ => rfl, fun _ _ => rfl⟩
    | false =>
      simp only [hr, Bool.false_eq_true, if_false] at hexec
      exact ⟨_, hexec s, fun _ _ => hexec _, hkind, hchar, toggle_esc _ _, hinc, hdec, hdigit,
        fun m _ => toggle_held _ _ m, fun n hn => latch_toggle_of_ne _ fun h => hn (h ▸ rfl)⟩
  | keypad => exact absurd hi hpad
  | key => exact absurd hi hkey

/-- Settles O21: a modifier byte drives a trace exactly on an edge, and no other byte drives one. -/
theorem aTraceIsDrivenExactlyOnAModifierEdge : Obligations.ATraceIsDrivenExactlyOnAModifierEdge := by
  intro i s t h
  by_cases hmod : ∃ m, i.keyClass = .mod m
  · obtain ⟨m, hm⟩ := hmod
    obtain rfl : momentary m (!i.released) s = t := Host.Outcome.next.inj ((exec_of_mod hm s).symm.trans h)
    have hedge := traceOutputs_traceValid_iff s.regs m (!i.released)
    have hunique : ∀ n, i.keyClass = .mod n → n = m := fun n hn => KeyClass.mod.inj (hn.symm.trans hm)
    refine ⟨⟨fun hv => ⟨m, hm, hedge.1 hv⟩, ?_⟩, ?_, fun hv => ?_, ?_, rfl, rfl, rfl⟩
    · rintro ⟨n, hn, hne⟩
      exact hedge.2 (hunique n hn ▸ hne)
    · intro n hn
      rw [hunique n hn]
      exact setHeld_held _ _ _
    · obtain ⟨htraceMod, htraceValue⟩ := traceOutputs_names_edge (hedge.1 hv)
      exact ⟨hm.trans (congrArg KeyClass.mod htraceMod.symm), htraceValue⟩
    · intro l hl
      cases hm.symm.trans hl
  · rw [not_exists] at hmod
    have hquiet : t.out.traceValid = false := exec_traceValid_of_not_mod hmod h
    have hdriven : t.out.traceValid ≠ true := by simp [hquiet]
    exact ⟨⟨fun hv => absurd hv hdriven, fun ⟨m, hm, _⟩ => absurd hm (hmod m)⟩, fun m hm => absurd hm (hmod m),
      fun hv => absurd hv hdriven, fun _ _ => hquiet, rfl, rfl, rfl⟩

/-- Settles O22: the step on a modifier's byte does not depend on which code of the set it carries. -/
theorem keysOfOneModifierShareOneBit : Obligations.KeysOfOneModifierShareOneBit := by
  intro s m hs k hk k' hk'
  refine ⟨?_, ?_, _, _, runBytes_cons_of_next (step_present_makeByte_of_mod hs hk)
    (runBytes_cons_of_next (step_present_makeByte_of_mod (s := momentary m true s) hs hk')
      (runBytes_cons_of_next (step_present_breakByte_of_mod hs hk') rfl)), setHeld_held _ _ _⟩
  · rw [step_present_makeByte_of_mod hs hk, step_present_makeByte_of_mod hs hk']
  · rw [step_present_breakByte_of_mod hs hk, step_present_breakByte_of_mod hs hk']

/-- Settles O23, by induction on the run of bytes. -/
theorem aLatchCountsMakeBytes : Obligations.ALatchCountsMakeBytes := fun _ l presses hs =>
  runBytes_lockByte_latch l presses hs

/-- Settles O10: a make byte of the CTRL set decodes to its class, whose step is the modifier's with the value 1. -/
theorem ctrlMakeSetsCtrl : Obligations.CtrlMakeSetsCtrl :=
  ⟨fun _ hc _ hk => decodeByte_makeByte_of_admits hc (.mod .ctrl) hk,
    fun _ s => congrArg Host.Outcome.next (momentary_eq .ctrl true s), decodeByte_referenceConfig 0x1D⟩

/-- Settles O11: a break byte of the CTRL set decodes to its class, whose step is the modifier's with the value 0. -/
theorem ctrlBreakClearsCtrl : Obligations.CtrlBreakClearsCtrl :=
  ⟨fun _ hc _ hk => decodeByte_breakByte_of_admits hc (.mod .ctrl) hk,
    fun _ s => congrArg Host.Outcome.next (momentary_eq .ctrl false s), decodeByte_referenceConfig 0x9D⟩

/-- Settles O12: a make byte of the ALT set decodes to its class, whose step is the modifier's with the value 1. -/
theorem altMakeSetsAlt : Obligations.AltMakeSetsAlt :=
  ⟨fun _ hc _ hk => decodeByte_makeByte_of_admits hc (.mod .alt) hk,
    fun _ s => congrArg Host.Outcome.next (momentary_eq .alt true s), decodeByte_referenceConfig 0x38⟩

/-- Settles O13: a break byte of the ALT set decodes to its class, whose step is the modifier's with the value 0. -/
theorem altBreakClearsAlt : Obligations.AltBreakClearsAlt :=
  ⟨fun _ hc _ hk => decodeByte_breakByte_of_admits hc (.mod .alt) hk,
    fun _ s => congrArg Host.Outcome.next (momentary_eq .alt false s), decodeByte_referenceConfig 0xB8⟩

/-- Settles O14: a make byte of the SHIFT set decodes to its class, whose step is the modifier's with the value 1. -/
theorem shiftMakeSetsShift : Obligations.ShiftMakeSetsShift :=
  ⟨fun _ hc _ hk => decodeByte_makeByte_of_admits hc (.mod .shift) hk,
    fun _ s => congrArg Host.Outcome.next (momentary_eq .shift true s),
    decodeByte_referenceConfig 0x2A, decodeByte_referenceConfig 0x36⟩

/-- Settles O15: a break byte of the SHIFT set decodes to its class, whose step is the modifier's with the value 0. -/
theorem shiftBreakClearsShift : Obligations.ShiftBreakClearsShift :=
  ⟨fun _ hc _ hk => decodeByte_breakByte_of_admits hc (.mod .shift) hk,
    fun _ s => congrArg Host.Outcome.next (momentary_eq .shift false s),
    decodeByte_referenceConfig 0xAA, decodeByte_referenceConfig 0xB6⟩

/-- Settles O16: the make byte of CAPS_CODE decodes to its class, whose step is the lock's toggle. -/
theorem capsMakeInvertsCaps : Obligations.CapsMakeInvertsCaps :=
  ⟨fun c hc => decodeByte_makeByte_of_admits hc (.lock .caps) (admits_lockCode c .caps),
    fun _ s => congrArg Host.Outcome.next (toggleLock_eq .caps s), decodeByte_referenceConfig 0x3A⟩

/-- Settles O17: the break byte of CAPS_CODE decodes to its class, whose step has no effect. -/
theorem capsBreakIsIgnored : Obligations.CapsBreakIsIgnored :=
  ⟨fun c hc => decodeByte_breakByte_of_admits hc (.lock .caps) (admits_lockCode c .caps),
    fun _ s => congrArg Host.Outcome.next (noEffect_eq_quiet s), decodeByte_referenceConfig 0xBA⟩

/-- Settles O18: the make byte of NUM_CODE decodes to its class, whose step is the lock's toggle. -/
theorem numMakeInvertsNum : Obligations.NumMakeInvertsNum :=
  ⟨fun c hc => decodeByte_makeByte_of_admits hc (.lock .num) (admits_lockCode c .num),
    fun _ s => congrArg Host.Outcome.next (toggleLock_eq .num s), decodeByte_referenceConfig 0x45⟩

/-- Settles O19: the break byte of NUM_CODE decodes to its class, whose step has no effect. -/
theorem numBreakIsIgnored : Obligations.NumBreakIsIgnored :=
  ⟨fun c hc => decodeByte_breakByte_of_admits hc (.lock .num) (admits_lockCode c .num),
    fun _ s => congrArg Host.Outcome.next (noEffect_eq_quiet s), decodeByte_referenceConfig 0xC5⟩

end Sys2Proof.Machine
end

section
/-! SUPPORT. The rule at which a regular make byte's chain ends, its step as a step on the character it looks up, the agreement with
the listing of 41_regular_keys.md R101, and the proofs of the statements of 41_regular_keys.md R86 to R101. -/

namespace Sys2Proof.Machine

/-! ## The rule at which the chain ends -/

/-- The character is past R89, R90 and R91, so that R92 clears the counter. -/
def ClearsCount (s : State) (c : Byte) : Prop := c ≠ s.cfg.unmapped ∧ ¬ digitCase s c ∧ c ≠ s.cfg.escChar

/-- When each rule ends the chain on the character `c`, in the order of 41_regular_keys.md R96. -/
def ChainEnd.Applies (s : State) (c : Byte) : ChainEnd → Prop
  | .unmapped => c = s.cfg.unmapped
  | .altDigit => c ≠ s.cfg.unmapped ∧ digitCase s c
  | .escape => c ≠ s.cfg.unmapped ∧ ¬ digitCase s c ∧ c = s.cfg.escChar
  | .verbInc => ClearsCount s c ∧ s.regs.ctrl = true ∧ (c = 0x2B#8 ∨ c = 0x3D#8)
  | .verbDec => ClearsCount s c ∧ s.regs.ctrl = true ∧ (c = 0x2D#8 ∨ c = 0x5F#8)
  | .char => ClearsCount s c ∧ ¬ (s.regs.ctrl = true ∧ (c = 0x2B#8 ∨ c = 0x3D#8 ∨ c = 0x2D#8 ∨ c = 0x5F#8))

theorem alt_and_isDigit_iff (s : State) (c : Byte) : (s.regs.alt && isDigit c) = true ↔ digitCase s c := by
  rw [Bool.and_eq_true, isDigit_iff, digitCase]

theorem ctrl_and_isIncrease_iff (s : State) (c : Byte) :
    (s.regs.ctrl && isIncrease c) = true ↔ s.regs.ctrl = true ∧ (c = 0x2B#8 ∨ c = 0x3D#8) := by
  rw [Bool.and_eq_true, isIncrease_iff]

theorem ctrl_and_isDecrease_iff (s : State) (c : Byte) :
    (s.regs.ctrl && isDecrease c) = true ↔ s.regs.ctrl = true ∧ (c = 0x2D#8 ∨ c = 0x5F#8) := by
  rw [Bool.and_eq_true, isDecrease_iff]

theorem applies_chainEnd (s : State) (c : Byte) : (chainEnd s.cfg s.regs c).Applies s c := by
  have h := chainEnd_cases s.cfg s.regs c
  simp only [← Bool.not_eq_true, alt_and_isDigit_iff, ctrl_and_isIncrease_iff, ctrl_and_isDecrease_iff] at h
  obtain ⟨hu, he⟩ | ⟨hu, ⟨hd, he⟩ | ⟨hd, ⟨hx, he⟩ | ⟨hx, ⟨hi, he⟩ | ⟨hi, ⟨hm, he⟩ | ⟨hm, he⟩⟩⟩⟩⟩ := h <;> rw [he]
  · exact hu
  · exact ⟨hu, hd⟩
  · exact ⟨hu, hd, hx⟩
  · exact ⟨⟨hu, hd, hx⟩, hi⟩
  · exact ⟨⟨hu, hd, hx⟩, hm⟩
  · refine ⟨⟨hu, hd, hx⟩, fun ⟨hctrl, hc⟩ => ?_⟩
    rw [← or_assoc] at hc
    exact hc.elim (fun h => hi ⟨hctrl, h⟩) fun h => hm ⟨hctrl, h⟩

/-- R93 and R94 test disjoint sets of characters (41_regular_keys.md R96). -/
theorem not_decrease_of_increase {c : Byte} (hinc : c = 0x2B#8 ∨ c = 0x3D#8) : ¬ (c = 0x2D#8 ∨ c = 0x5F#8) := by
  rw [← isDecrease_iff, isIncrease_not_isDecrease c ((isIncrease_iff c).2 hinc)]
  exact Bool.false_ne_true

theorem chainEnd_of_applies {s : State} {c : Byte} {e : ChainEnd} (h : e.Applies s c) :
    chainEnd s.cfg s.regs c = e := by
  cases e with
  | unmapped => exact if_pos h
  | altDigit =>
    obtain ⟨hu, hd⟩ := h
    simp only [chainEnd, alt_and_isDigit_iff, hu, hd, if_true, if_false]
  | escape =>
    obtain ⟨hu, hd, hx⟩ := h
    simp only [chainEnd, alt_and_isDigit_iff, hu, hd, if_pos hx, if_false]
  | verbInc =>
    obtain ⟨⟨hu, hd, hx⟩, hinc⟩ := h
    simp only [chainEnd, alt_and_isDigit_iff, ctrl_and_isIncrease_iff, hu, hd, hx, if_pos hinc, if_false]
  | verbDec =>
    obtain ⟨⟨hu, hd, hx⟩, hdec⟩ := h
    have hinc : ¬ (s.regs.ctrl = true ∧ (c = 0x2B#8 ∨ c = 0x3D#8)) := fun h => not_decrease_of_increase h.2 hdec.2
    simp only [chainEnd, alt_and_isDigit_iff, ctrl_and_isIncrease_iff, ctrl_and_isDecrease_iff, hu, hd, hx, if_neg hinc,
      if_pos hdec, if_false]
  | char =>
    obtain ⟨⟨hu, hd, hx⟩, hnone⟩ := h
    rw [← or_assoc, and_or_left, not_or] at hnone
    simp only [chainEnd, alt_and_isDigit_iff, ctrl_and_isIncrease_iff, ctrl_and_isDecrease_iff, hu, hd, hx, hnone, if_false]

/-- The chain ends at the one rule whose condition holds. -/
theorem chainEnd_eq_iff {s : State} {c : Byte} {e : ChainEnd} : chainEnd s.cfg s.regs c = e ↔ e.Applies s c :=
  ⟨fun h => h ▸ applies_chainEnd s c, chainEnd_of_applies⟩

/-- The chain clears the counter exactly past R89, R90 and R91 (41_regular_keys.md R92). -/
theorem escEffect_chainEnd_eq_clear_iff {s : State} {c : Byte} :
    (chainEnd s.cfg s.regs c).escEffect = .clear ↔ ClearsCount s c := by
  have h := applies_chainEnd s c
  cases he : chainEnd s.cfg s.regs c <;> rw [he] at h
  case unmapped => exact ⟨nofun, fun ⟨hu, _⟩ => absurd h hu⟩
  case altDigit => exact ⟨nofun, fun ⟨_, hd, _⟩ => absurd h.2 hd⟩
  case escape => exact ⟨nofun, fun ⟨_, _, hx⟩ => absurd h.2.2 hx⟩
  case verbInc | verbDec | char => exact ⟨fun _ => h.1, fun _ => rfl⟩

/-- A character of R93 is no digit, so R90 does not take it first. -/
theorem verbInc_applies_iff {s : State} {c : Byte} : ChainEnd.verbInc.Applies s c ↔
    c ≠ s.cfg.unmapped ∧ c ≠ s.cfg.escChar ∧ s.regs.ctrl = true ∧ (c = 0x2B#8 ∨ c = 0x3D#8) := by
  refine ⟨fun ⟨⟨hu, _, hx⟩, hinc⟩ => ⟨hu, hx, hinc⟩, fun ⟨hu, hx, hctrl, hinc⟩ => ⟨⟨hu, fun hd => ?_, hx⟩, hctrl, hinc⟩⟩
  exact absurd ((isDigit_iff c).2 hd.2) (by simp [isIncrease_not_isDigit c ((isIncrease_iff c).2 hinc)])

/-- A character of R94 is no digit, so R90 does not take it first. -/
theorem verbDec_applies_iff {s : State} {c : Byte} : ChainEnd.verbDec.Applies s c ↔
    c ≠ s.cfg.unmapped ∧ c ≠ s.cfg.escChar ∧ s.regs.ctrl = true ∧ (c = 0x2D#8 ∨ c = 0x5F#8) := by
  refine ⟨fun ⟨⟨hu, _, hx⟩, hdec⟩ => ⟨hu, hx, hdec⟩, fun ⟨hu, hx, hctrl, hdec⟩ => ⟨⟨hu, fun hd => ?_, hx⟩, hctrl, hdec⟩⟩
  exact absurd ((isDigit_iff c).2 hd.2) (by simp [isDecrease_not_isDigit c ((isDecrease_iff c).2 hdec)])

/-! ## What the chain drives and counts -/

@[simp] theorem chainOutputs_modstat (e : ChainEnd) (r : RegFile) (ch : Byte) :
    (chainOutputs e r ch).modstat = modstat r := by
  cases e with
  | escape => simp only [chainOutputs]; split <;> rfl
  | unmapped | altDigit | verbInc | verbDec | char => rfl

theorem chainOutputs_verbInc_iff (e : ChainEnd) (r : RegFile) (ch : Byte) :
    (chainOutputs e r ch).verbInc = true ↔ e = .verbInc := by
  cases e with
  | escape => simp only [chainOutputs]; split <;> simp
  | unmapped | altDigit | verbInc | verbDec | char => simp [chainOutputs]

theorem chainOutputs_verbDec_iff (e : ChainEnd) (r : RegFile) (ch : Byte) :
    (chainOutputs e r ch).verbDec = true ↔ e = .verbDec := by
  cases e with
  | escape => simp only [chainOutputs]; split <;> simp
  | unmapped | altDigit | verbInc | verbDec | char => simp [chainOutputs]

/-- Of the registers the chain's outputs show the counter and, in `modstat`, the whole file. -/
theorem chainOutputs_of_esc_eq {r r' : RegFile} (e : ChainEnd) (ch : Byte) (h : r'.esc = r.esc) :
    { chainOutputs e r' ch with modstat := modstat r } = chainOutputs e r ch := by
  cases e with
  | escape => simp only [chainOutputs, h]; split <;> rfl
  | unmapped | altDigit | verbInc | verbDec | char => rfl

theorem chainEsc_of_clear {e : ChainEnd} (esc : Fin 3) (h : e.escEffect = .clear) : chainEsc e esc = 0 := by
  cases e with
  | unmapped | altDigit | escape => cases h
  | verbInc | verbDec | char => rfl

/-- A running count ends by R92, or by the press that requests shutdown. -/
theorem clear_of_chainEsc_eq_zero {e : ChainEnd} {r : RegFile} {ch : Byte} (hrun : r.esc ≠ 0)
    (hzero : chainEsc e r.esc = 0) (hkind : (chainOutputs e r ch).outKind ≠ .shutdown) : e.escEffect = .clear := by
  cases e with
  | unmapped | altDigit => exact absurd hzero hrun
  | escape =>
    obtain ⟨-, hsucc, -⟩ | ⟨-, -, hreach⟩ := escSucc_cases r.esc
    · have hzero : escSucc r.esc = 0 := hzero
      simp [hzero] at hsucc
    · simp [chainOutputs, hreach] at hkind
  | verbInc | verbDec | char => rfl

/-! ## The step on a looked-up character -/

/-- The step of a regular make byte that looks up the character `c`. -/
def chainStep (s : State) (c : Byte) : State :=
  commit { s.regs with esc := chainEsc (chainEnd s.cfg s.regs c) s.regs.esc }
    (chainOutputs (chainEnd s.cfg s.regs c) s.regs c) s

theorem chainStep_of_applies {s : State} {c : Byte} {e : ChainEnd} (h : e.Applies s c) :
    chainStep s c = commit { s.regs with esc := chainEsc e s.regs.esc } (chainOutputs e s.regs c) s := by
  rw [chainStep, chainEnd_of_applies h]

/-- With neither ALT nor CTRL held and no count running, a character past R89 and R91 is reported and no register changes. -/
theorem chainStep_of_plain_char {s : State} {c : Byte} (hu : c ≠ s.cfg.unmapped) (hx : c ≠ s.cfg.escChar)
    (halt : s.regs.alt = false) (hctrl : s.regs.ctrl = false) (hesc : s.regs.esc = 0) :
    chainStep s c = { s with out := { quiet s.regs with outKind := .char, outChar := c } } := by
  have hchar : ChainEnd.char.Applies s c := ⟨⟨hu, by simp [digitCase, halt], hx⟩, by simp [hctrl]⟩
  have hregs : { s.regs with esc := 0 } = s.regs := by rw [← hesc]
  rw [chainStep_of_applies hchar, chainEsc_of_clear _ rfl, hregs]
  rfl

/-- The read of a keypad key, by its select signal (41_regular_keys.md R86, R88). -/
theorem romRead_selectKeypad (c : Config) (r : RegFile) (k : KeyCode) :
    romRead c (selectKeypad r) k = entry c r.num k := by
  rw [romRead_eq_getD, selectKeypad, entry]
  cases r.num <;> rfl

theorem exec_keyMake (k : KeyCode) (s : State) :
    exec (.keyMake k) s = .next (chainStep s (entry s.cfg (s.regs.shift ^^ s.regs.caps) k)) := by
  rw [← romRead_selectKey]
  rfl

theorem exec_keypadMake (k : KeyCode) (s : State) :
    exec (.keypadMake k) s = .next (chainStep s (entry s.cfg s.regs.num k)) := by
  rw [← romRead_selectKeypad]
  rfl

theorem exec_of_lookedUp {i : Instr} {s : State} {c : Byte} (h : lookedUp s i = some c) :
    exec i s = .next (chainStep s c) := by
  cases i with
  | keyMake k => rw [exec_keyMake, Option.some.inj h]
  | keypadMake k => rw [exec_keypadMake, Option.some.inj h]
  | ctrlMake | ctrlBreak | altMake | altBreak | shiftMake | shiftBreak
  | capsMake | capsBreak | numMake | numBreak | keypadBreak | keyBreak => cases h

/-- An instruction that looks up no character reports NONE and keeps the counter. -/
theorem exec_of_lookedUp_none {i : Instr} {s t : State} (h : lookedUp s i = none) (ht : exec i s = .next t) :
    t.out.ReportsNone ∧ t.regs.esc = s.regs.esc := by
  obtain ⟨m, -, he⟩ | ⟨l, -, -, he⟩ | ⟨-, -, he⟩ | ⟨-, -, he⟩ | ⟨hi, -⟩ | ⟨hi, -⟩ := exec_cases i s
  case inr.inr.inr.inr.inl | inr.inr.inr.inr.inr => rw [hi] at h; cases h
  all_goals obtain rfl := Host.Outcome.next.inj (he.symm.trans ht)
  · exact ⟨traceOutputs_reportsNone _ _ _, setHeld_esc _ _ _⟩
  · exact ⟨noneOutputs_reportsNone _, toggle_esc _ _⟩
  · exact ⟨noneOutputs_reportsNone _, rfl⟩
  · exact ⟨noneOutputs_reportsNone _, rfl⟩

/-- An instruction either looks up a character and takes the chain's step on it, or reports NONE and keeps the counter. -/
theorem exec_lookedUp_cases {i : Instr} {s t : State} (h : exec i s = .next t) :
    (∃ c, lookedUp s i = some c ∧ t = chainStep s c) ∨
    (lookedUp s i = none ∧ t.out.ReportsNone ∧ t.regs.esc = s.regs.esc) := by
  cases hl : lookedUp s i with
  | none => exact .inr ⟨rfl, exec_of_lookedUp_none hl h⟩
  | some c => exact .inl ⟨c, rfl, Host.Outcome.next.inj (h.symm.trans (exec_of_lookedUp hl))⟩

/-- Each clause of 41_regular_keys.md R89-R95 holds of the chain's step, which ends at the rule of that clause. -/
theorem chainResult_chainStep (s : State) (c : Byte) : ChainResult s c (.next (chainStep s c)) where
  r89 hu := congrArg Host.Outcome.next (chainStep_of_applies (e := .unmapped) hu)
  r90 hu hd := congrArg Host.Outcome.next (chainStep_of_applies (e := .altDigit) ⟨hu, hd⟩)
  r91 hu hd hx n hn := by
    rw [chainStep_of_applies (e := .escape) ⟨hu, hd, hx⟩]
    obtain ⟨-, hsucc, hreach⟩ | ⟨hesc, -, -⟩ := escSucc_cases s.regs.esc
    · obtain rfl : escSucc s.regs.esc = n := Fin.ext (hsucc.trans hn.symm)
      simp only [chainOutputs, hreach]
      rfl
    · simp only [hesc] at hn
      omega
  r91_limit hu hd hx hn := by
    rw [chainStep_of_applies (e := .escape) ⟨hu, hd, hx⟩]
    obtain ⟨hlt, -, -⟩ | ⟨-, hzero, hreach⟩ := escSucc_cases s.regs.esc
    · omega
    · simp only [chainOutputs, chainEsc, hreach, hzero]
      rfl
  r93 hu hd hx hctrl hc := congrArg Host.Outcome.next (chainStep_of_applies (e := .verbInc) ⟨⟨hu, hd, hx⟩, hctrl, hc⟩)
  r94 hu hd hx hctrl hc := congrArg Host.Outcome.next (chainStep_of_applies (e := .verbDec) ⟨⟨hu, hd, hx⟩, hctrl, hc⟩)
  r95 hu hd hx hc := congrArg Host.Outcome.next (chainStep_of_applies (e := .char) ⟨⟨hu, hd, hx⟩, hc⟩)

theorem chainResult_keyMake (k : KeyCode) (s : State) :
    ChainResult s (entry s.cfg (s.regs.shift ^^ s.regs.caps) k) (exec (.keyMake k) s) := by
  rw [exec_keyMake]
  exact chainResult_chainStep _ _

theorem chainResult_keypadMake (k : KeyCode) (s : State) :
    ChainResult s (entry s.cfg s.regs.num k) (exec (.keypadMake k) s) := by
  rw [exec_keypadMake]
  exact chainResult_chainStep _ _

/-- With other values of SHIFT and CAPS a character's step differs in those two bits and in `modstat` alone. -/
theorem chainStep_with_shift_caps (s : State) (c : Byte) (shift caps : Bool) :
    (chainStep { s with regs := { s.regs with shift := shift, caps := caps } } c).regs =
      { (chainStep s c).regs with shift := shift, caps := caps } ∧
    { (chainStep { s with regs := { s.regs with shift := shift, caps := caps } } c).out with
      modstat := (chainStep s c).out.modstat } = (chainStep s c).out := by
  refine ⟨rfl, ?_⟩
  rw [chainStep, chainStep, commit_out, commit_out, chainOutputs_modstat]
  exact chainOutputs_of_esc_eq _ _ rfl

/-! ## The listing of 41_regular_keys.md R101 -/

theorem listingOut_eq_noneOutputs (r : RegFile) : listingOut r = noneOutputs r := rfl

theorem listingTrace_eq_traceOutputs (r : RegFile) (m : Modifier) (v : Bool) :
    listingTrace (listingOut r) (r.held m) v m = traceOutputs r m v := by
  obtain ⟨hheld, h⟩ | ⟨hheld, h⟩ := traceOutputs_cases r m v <;>
    simp [listingTrace, h, hheld, listingOut_eq_noneOutputs]

/-- The listing's character tests compare numbers, the chain's compare bytes. -/
theorem listing_digit_iff (r : RegFile) (c : Byte) :
    (r.alt = true ∧ 0x30 ≤ c.toNat ∧ c.toNat ≤ 0x39) ↔ (r.alt && isDigit c) = true := by
  rw [Bool.and_eq_true, isDigit_iff]
  exact Iff.rfl

theorem listing_increase_iff (r : RegFile) (c : Byte) :
    (r.ctrl = true ∧ (c.toNat = 0x2B ∨ c.toNat = 0x3D)) ↔ (r.ctrl && isIncrease c) = true := by
  rw [Bool.and_eq_true, isIncrease_iff, ← BitVec.toNat_inj, ← BitVec.toNat_inj]
  exact Iff.rfl

theorem listing_decrease_iff (r : RegFile) (c : Byte) :
    (r.ctrl = true ∧ (c.toNat = 0x2D ∨ c.toNat = 0x5F)) ↔ (r.ctrl && isDecrease c) = true := by
  rw [Bool.and_eq_true, isDecrease_iff, ← BitVec.toNat_inj, ← BitVec.toNat_inj]
  exact Iff.rfl

/-- The listing's chain ends at the same rule, and its case on the counter is the escape press of R91. -/
theorem listingChain_eq (s : State) (c : Byte) :
    listingChain s.cfg s.regs c (listingOut s.regs) = ((chainStep s c).regs, (chainStep s c).out) := by
  simp only [listingChain, listing_digit_iff, listing_increase_iff, listing_decrease_iff, chainStep, chainEnd,
    commit_regs, commit_out]
  split_ifs
  · rfl
  · rfl
  · split <;> (next hesc => simp only [chainEsc, chainOutputs, hesc]; rfl)
  · rfl
  · rfl
  · rfl

/-- The listing's `pressed` is the release flag inverted (30_encoding.md R56). -/
theorem pressed_eq_not_releaseFlag (raw : Byte) : (raw &&& 0x80 == 0) = !releaseFlag raw := by
  rw [Bool.eq_iff_iff, beq_iff_eq, Bool.not_eq_true', releaseFlag_eq_false_iff]

theorem setWidth_and_eq_keyCode (raw : Byte) : BitVec.setWidth 7 (raw &&& 0x7F) = keyCode raw := by
  revert raw; decide +kernel

/-- What the listing gives for a key class, a release flag and a code. -/
def classListing (c : Config) (r : RegFile) (kc : KeyClass) (released : Bool) (k : KeyCode) : RegFile × Outputs :=
  match kc with
  | .mod m => (r.setHeld (!released) m, listingTrace (listingOut r) (r.held m) (!released) m)
  | .lock l => (if released then r else r.toggle l, listingOut r)
  | .keypad => if released then (r, listingOut r) else listingChain c r (entry c r.num k) (listingOut r)
  | .key => if released then (r, listingOut r) else listingChain c r (entry c (r.shift ^^ r.caps) k) (listingOut r)

/-- The listing tests the code in the order of the classification (30_encoding.md R58). -/
theorem decodeListing_eq_classListing (c : Config) (r : RegFile) (raw : Byte) :
    decodeListing c r raw = classListing c r (classify c (keyCode raw)) (releaseFlag raw) (keyCode raw) := by
  simp only [decodeListing, pressed_eq_not_releaseFlag, setWidth_and_eq_keyCode, classify, ← BitVec.le_def]
  generalize keyCode raw = k
  generalize releaseFlag raw = released
  by_cases hctrl : k ∈ c.ctrlCodes
  · simp only [if_pos hctrl]
    rfl
  by_cases halt : k ∈ c.altCodes
  · simp only [if_neg hctrl, if_pos halt]
    rfl
  by_cases hshift : k ∈ c.shiftCodes
  · simp only [if_neg hctrl, if_neg halt, if_pos hshift]
    rfl
  by_cases hcaps : k = c.capsCode
  · simp only [if_neg hctrl, if_neg halt, if_neg hshift, if_pos hcaps]
    cases released <;> rfl
  by_cases hnum : k = c.numCode
  · simp only [if_neg hctrl, if_neg halt, if_neg hshift, if_neg hcaps, if_pos hnum]
    cases released <;> rfl
  simp only [if_neg hctrl, if_neg halt, if_neg hshift, if_neg hcaps, if_neg hnum]
  by_cases hpad : c.numpadLo ≤ k ∧ k ≤ c.numpadHi
  · simp only [if_pos hpad]
    cases released <;> rfl
  · simp only [if_neg hpad]
    cases released <;> rfl

/-- Every class's meaning commits what the listing gives. -/
theorem exec_assemble_eq_classListing (kc : KeyClass) (released : Bool) (k : KeyCode) (s : State) :
    exec (assemble kc released k) s =
      .next (commit (classListing s.cfg s.regs kc released k).1 (classListing s.cfg s.regs kc released k).2 s) := by
  cases kc with
  | mod m =>
    rw [exec_assemble_mod, classListing, listingTrace_eq_traceOutputs]
    rfl
  | lock l =>
    rw [exec_assemble_lock]
    cases released <;> rfl
  | keypad =>
    cases released with
    | true => rfl
    | false =>
      rw [classListing, if_neg Bool.false_ne_true, listingChain_eq]
      exact exec_keypadMake k s
  | key =>
    cases released with
    | true => rfl
    | false =>
      rw [classListing, if_neg Bool.false_ne_true, listingChain_eq]
      exact exec_keyMake k s

/-! ## The statements -/

/-- Settles O37: the listing and the meanings agree class by class. -/
theorem aStepIsTheListingOfTheDecodeFunction : Obligations.AStepIsTheListingOfTheDecodeFunction := by
  intro s raw ⟨hwf, hdone⟩
  rw [step_present s raw hwf hdone, decodeByte, exec_assemble_eq_classListing, decodeListing_eq_classListing]
  rfl

/-- Settles O25: a code of the class decodes to it, and its step is the chain's on the entry that SHIFT xor CAPS selects. -/
theorem keyMakeLooksUpByShiftXorCaps : Obligations.KeyMakeLooksUpByShiftXorCaps := by
  refine ⟨fun c hc k hreg hpad => decodeByte_makeByte_of_admits hc .key ⟨hreg, hpad⟩, chainResult_keyMake, ?_, ?_⟩
  · simp only [decodeByte_referenceConfig]
    decide
  · rintro ⟨_, _, done, inputs, out⟩ rfl rfl
    have hentry : entry referenceConfig (RegFile.reset.shift ^^ RegFile.reset.caps) 0x1E = 0x61 := rfl
    rw [exec_keyMake, hentry]
    exact congrArg Host.Outcome.next
      (chainStep_of_plain_char (by simp [referenceConfig]) (by simp [referenceConfig]) rfl rfl rfl)

/-- Settles O26: a code of the class decodes to it, and its step is the chain's on the entry that NUM LOCK selects. -/
theorem keypadMakeLooksUpByNum : Obligations.KeypadMakeLooksUpByNum := by
  refine ⟨fun c hc k hreg hpad => decodeByte_makeByte_of_admits hc .keypad ⟨hreg, hpad⟩, chainResult_keypadMake, ?_, ?_⟩
  · simp only [decodeByte_referenceConfig]
    decide
  · rintro ⟨_, _, done, inputs, out⟩ rfl rfl
    have hentry : entry referenceConfig true 0x47 = 0x37 := rfl
    rw [exec_keypadMake, hentry]
    exact congrArg Host.Outcome.next
      (chainStep_of_plain_char (by simp [referenceConfig]) (by simp [referenceConfig]) rfl rfl rfl)

/-- Settles O27: a code of the class decodes to it, and its step has no effect. -/
theorem keyBreakDoesNothing : Obligations.KeyBreakDoesNothing := by
  refine ⟨fun c hc k hreg hpad => decodeByte_breakByte_of_admits hc .key ⟨hreg, hpad⟩,
    fun _ s => congrArg Host.Outcome.next (noEffect_eq_quiet s), ?_⟩
  simp only [decodeByte_referenceConfig]
  decide

/-- Settles O28: a code of the class decodes to it, and its step has no effect. -/
theorem keypadBreakDoesNothing : Obligations.KeypadBreakDoesNothing := by
  refine ⟨fun c hc k hreg hpad => decodeByte_breakByte_of_admits hc .keypad ⟨hreg, hpad⟩,
    fun _ s => congrArg Host.Outcome.next (noEffect_eq_quiet s), ?_⟩
  simp only [decodeByte_referenceConfig]
  decide

/-- Settles O29: the chain reads neither SHIFT nor CAPS, and the keypad's select signal is NUM LOCK. -/
theorem shiftAndCapsDoNotReachAKeypadKey : Obligations.ShiftAndCapsDoNotReachAKeypadKey := by
  intro s k hc hreg hpad
  refine ⟨decodeByte_makeByte_of_admits hc .keypad ⟨hreg, hpad⟩, ?_, fun shift caps => ?_⟩
  · have hentry : (if s.regs.num then entry s.cfg true k else entry s.cfg false k) = entry s.cfg s.regs.num k := by
      cases s.regs.num <;> rfl
    rw [hentry]
    exact chainResult_keypadMake k s
  · exact ⟨_, _, exec_keypadMake k s, exec_keypadMake k _, chainStep_with_shift_caps s _ shift caps⟩

/-- Settles O33: the pulses are driven where the chain ends at R93 and at R94, past R92. -/
theorem ctrlWithPlusOrMinusPulsesVerbosity : Obligations.CtrlWithPlusOrMinusPulsesVerbosity := by
  intro i s t h
  obtain ⟨c, hlook, rfl⟩ | ⟨hlook, ⟨-, -, hinc, hdec, -⟩, -⟩ := exec_lookedUp_cases h
  · have hinc : (chainStep s c).out.verbInc = true ↔ ChainEnd.verbInc.Applies s c :=
      (chainOutputs_verbInc_iff _ _ _).trans chainEnd_eq_iff
    have hdec : (chainStep s c).out.verbDec = true ↔ ChainEnd.verbDec.Applies s c :=
      (chainOutputs_verbDec_iff _ _ _).trans chainEnd_eq_iff
    refine ⟨?_, ?_, ?_⟩
    · simp [hinc, verbInc_applies_iff, hlook]
    · simp [hdec, verbDec_applies_iff, hlook]
    · rw [hinc, hdec]
      rintro (happ | happ) <;> rw [chainStep_of_applies happ] <;> exact ⟨rfl, rfl, rfl⟩
  · simp [hlook, hinc, hdec]

/-- Settles O34: past R89, R90 and R91 the chain clears the counter, and only there or at a shutdown does a running count end. -/
theorem onlyAMappedNonEscapeKeyClearsARunningCount : Obligations.OnlyAMappedNonEscapeKeyClearsARunningCount := by
  intro i s t h
  obtain ⟨c, hlook, rfl⟩ | ⟨hlook, -, hesc⟩ := exec_lookedUp_cases h
  · refine ⟨fun c' hlook' hu hd hx => ?_, fun hrun hzero hkind => ?_⟩
    · obtain rfl : c = c' := Option.some.inj (hlook.symm.trans hlook')
      exact chainEsc_of_clear _ (escEffect_chainEnd_eq_clear_iff.2 ⟨hu, hd, hx⟩)
    · exact ⟨c, hlook, escEffect_chainEnd_eq_clear_iff.1 (clear_of_chainEsc_eq_zero hrun hzero hkind)⟩
  · refine ⟨fun c hlook' => ?_, fun hrun hzero => absurd (hesc.symm.trans hzero) hrun⟩
    rw [hlook] at hlook'
    cases hlook'

end Sys2Proof.Machine
end

section
/-! SUPPORT. The event each byte reports, the legal outputs and the progress of every cycle, `poll` and the sink, and the
proofs of the statements of 60_exceptions.md. -/

namespace Sys2Proof.Machine

/-! ## The event of a regular make byte -/

theorem chainOutputs_altDigit_iff (e : ChainEnd) (r : RegFile) (ch : Byte) :
    (chainOutputs e r ch).altDigit = true ↔ e = .altDigit := by
  cases e with
  | escape => simp only [chainOutputs]; split <;> simp
  | unmapped | altDigit | verbInc | verbDec | char => simp [chainOutputs]

theorem chainOutputs_char_iff (e : ChainEnd) (r : RegFile) (ch : Byte) :
    (chainOutputs e r ch).outKind = .char ↔ e = .char := by
  cases e with
  | escape => simp only [chainOutputs]; split <;> simp
  | unmapped | altDigit | verbInc | verbDec | char => simp [chainOutputs]

/-- SHUTDOWN is the press that reaches the limit (41_regular_keys.md R91). -/
theorem chainOutputs_shutdown_iff (e : ChainEnd) (r : RegFile) (ch : Byte) :
    (chainOutputs e r ch).outKind = .shutdown ↔ e = .escape ∧ r.esc = 2 := by
  cases e with
  | escape =>
    obtain ⟨hlt, -, hreach⟩ | ⟨hesc, -, hreach⟩ := escSucc_cases r.esc
    · have hne : r.esc ≠ 2 := fun h => by simp [h] at hlt
      simp [chainOutputs, hreach, hne]
    · simpa [chainOutputs, hreach] using hesc
  | unmapped | altDigit | verbInc | verbDec | char => simp [chainOutputs]

/-- Only the digit hook and a CHAR event drive `out_char` (60_exceptions.md R111). -/
theorem chainOutputs_outChar_of_ne {e : ChainEnd} (hdigit : e ≠ .altDigit) (hchar : e ≠ .char) (r : RegFile) (ch : Byte) :
    (chainOutputs e r ch).outChar = 0x00 := by
  cases e with
  | altDigit => exact absurd rfl hdigit
  | char => exact absurd rfl hchar
  | escape => simp only [chainOutputs]; split <;> rfl
  | unmapped | verbInc | verbDec => rfl

theorem chainStep_altDigit_iff {s : State} {c : Byte} :
    (chainStep s c).out.altDigit = true ↔ ChainEnd.altDigit.Applies s c :=
  (chainOutputs_altDigit_iff _ _ _).trans chainEnd_eq_iff

theorem chainStep_char_iff {s : State} {c : Byte} :
    (chainStep s c).out.outKind = .char ↔ ChainEnd.char.Applies s c :=
  (chainOutputs_char_iff _ _ _).trans chainEnd_eq_iff

theorem chainStep_shutdown_iff {s : State} {c : Byte} :
    (chainStep s c).out.outKind = .shutdown ↔ ChainEnd.escape.Applies s c ∧ s.regs.esc = 2 :=
  (chainOutputs_shutdown_iff _ _ _).trans (and_congr_left' chainEnd_eq_iff)

theorem chainStep_outChar_of_not {s : State} {c : Byte} (hdigit : (chainStep s c).out.altDigit ≠ true)
    (hchar : (chainStep s c).out.outKind ≠ .char) : (chainStep s c).out.outChar = 0x00 :=
  chainOutputs_outChar_of_ne (mt (chainOutputs_altDigit_iff _ _ _).2 hdigit)
    (mt (chainOutputs_char_iff _ _ _).2 hchar) _ _

/-! ## Legal outputs -/

/-- What 10_state.md R27 asks of `modstat`. -/
theorem modstat_legal (r : RegFile) : (modstat r).getLsbD 7 = false ∧ (modstat r).extractLsb' 5 2 ≠ 3#2 :=
  ⟨modstat_bit_seven r, modstat_esc_field_ne_three r⟩

theorem idleOutputs_legal (c : Config) (r : RegFile) : (idleOutputs r).Legal c where
  quiet _ := rfl
  pulse := ⟨Nat.zero_le 1, fun _ => rfl⟩
  mapped := nofun
  char _ := rfl
  trace _ := ⟨rfl, rfl⟩
  status := modstat_legal r

theorem noneOutputs_legal (c : Config) (r : RegFile) : (noneOutputs r).Legal c where
  quiet := nofun
  pulse := ⟨Nat.zero_le 1, fun _ => rfl⟩
  mapped := nofun
  char _ := rfl
  trace _ := ⟨rfl, rfl⟩
  status := modstat_legal r

theorem traceOutputs_legal (c : Config) (r : RegFile) (m : Modifier) (v : Bool) : (traceOutputs r m v).Legal c := by
  obtain ⟨-, h⟩ | ⟨-, h⟩ := traceOutputs_cases r m v <;> rw [h]
  · exact noneOutputs_legal c r
  · exact { quiet := nofun, pulse := ⟨Nat.le_refl 1, fun h => absurd rfl h⟩, mapped := nofun, char := fun _ => rfl,
            trace := nofun, status := modstat_legal r }

/-- The outputs of the rule that ends the chain are legal under the condition at which it does. -/
theorem chainOutputs_legal {s : State} {c : Byte} {e : ChainEnd} (h : e.Applies s c) :
    (chainOutputs e s.regs c).Legal s.cfg := by
  have hstatus := modstat_legal s.regs
  cases e with
  | unmapped => exact noneOutputs_legal _ _
  | altDigit =>
    obtain ⟨-, -, hdigit⟩ := h
    exact { quiet := nofun, pulse := ⟨Nat.le_refl 1, fun h => absurd rfl h⟩, mapped := nofun, char := fun _ => hdigit,
            trace := fun _ => ⟨rfl, rfl⟩, status := hstatus }
  | escape =>
    simp only [chainOutputs]
    split
    · exact { quiet := nofun, pulse := ⟨Nat.zero_le 1, fun _ => rfl⟩, mapped := nofun, char := fun _ => rfl,
              trace := fun _ => ⟨rfl, rfl⟩, status := hstatus }
    · exact noneOutputs_legal _ _
  | verbInc | verbDec =>
    exact { quiet := nofun, pulse := ⟨Nat.le_refl 1, fun h => absurd rfl h⟩, mapped := nofun, char := fun _ => rfl,
            trace := fun _ => ⟨rfl, rfl⟩, status := hstatus }
  | char =>
    obtain ⟨⟨hmapped, -, -⟩, -⟩ := h
    exact { quiet := nofun, pulse := ⟨Nat.zero_le 1, fun _ => rfl⟩, mapped := fun _ => hmapped,
            char := fun h => absurd rfl h, trace := fun _ => ⟨rfl, rfl⟩, status := hstatus }

theorem exec_out_legal {i : Instr} {s t : State} (h : exec i s = .next t) : t.out.Legal s.cfg := by
  obtain ⟨m, -, he⟩ | ⟨l, -, -, he⟩ | ⟨-, -, he⟩ | ⟨-, -, he⟩ | ⟨-, he⟩ | ⟨-, he⟩ := exec_cases i s <;>
    obtain rfl := Host.Outcome.next.inj (he.symm.trans h)
  · exact traceOutputs_legal _ _ _ _
  · exact noneOutputs_legal _ _
  · exact noneOutputs_legal _ _
  · exact noneOutputs_legal _ _
  · exact chainOutputs_legal (applies_chainEnd s _)
  · exact chainOutputs_legal (applies_chainEnd s _)

/-! ## The invariant and progress -/

theorem exec_resetDone {i : Instr} {s t : State} (h : exec i s = .next t) : t.resetDone = s.resetDone := by
  obtain ⟨r, o, he⟩ := exec_eq_commit i s
  obtain rfl := Host.Outcome.next.inj (he.symm.trans h)
  rfl

theorem exec_keeps_ready {i : Instr} {s t : State} (hs : Ready s) (h : exec i s = .next t) : Ready t := by
  obtain ⟨hwf, hdone⟩ := hs
  exact ⟨exec_cfg h ▸ hwf, (exec_resetDone h).trans hdone⟩

/-- Every step keeps a legal state legal (10_state.md R31, 60_exceptions.md R111, R118). -/
theorem step_keeps_inv {s t : State} (hs : s.Inv) (h : step s = .next t) : t.Inv := by
  obtain ⟨-, ⟨-, rfl⟩ | ⟨-, hdone, -, hexec⟩ | ⟨-, hdone, -, rfl⟩⟩ := step_cases h
  · exact ⟨hs.cfg, rfl, idleOutputs_legal _ _⟩
  · obtain ⟨hwf, hdone⟩ := exec_keeps_ready (s := takeCycle s) ⟨hs.cfg, hdone⟩ hexec
    exact ⟨hwf, hdone, exec_cfg hexec ▸ exec_out_legal hexec⟩
  · exact ⟨hs.cfg, hdone, idleOutputs_legal _ _⟩

/-- A machine that can accept a byte answers a next state in every cycle (60_exceptions.md R110). -/
theorem step_next_of_ready {s : State} (hs : Ready s) : ∃ t : State, step s = .next t := by
  obtain ⟨hwf, hdone⟩ := hs
  rw [step_of_wf s hwf, runCycle]
  split_ifs with hrst hnotDone hvalid
  · exact ⟨_, rfl⟩
  · simp [hdone] at hnotDone
  · obtain ⟨r, o, hexec⟩ := exec_eq_commit (decodeByte (takeCycle s).cfg (currentCycle s).inByte) (takeCycle s)
    exact ⟨_, hexec⟩
  · exact ⟨_, rfl⟩

/-- The invariant holds along a run, and the run never stops. -/
theorem run_keeps_inv (n : Nat) {s : State} (hs : s.Inv) : ∃ t : State, Sys2Proof.core.run n s = .next t ∧ t.Inv := by
  induction n generalizing s with
  | zero => exact ⟨s, rfl, hs⟩
  | succ n ih =>
    obtain ⟨u, hstep⟩ := step_next_of_ready ⟨hs.cfg, hs.reset⟩
    obtain ⟨t, hrun, ht⟩ := ih (step_keeps_inv hs hstep)
    exact ⟨t, (run_succ_of_next n hstep).trans hrun, ht⟩

/-! ## `poll` and the sink -/

theorem poll_some_of_step {p : SinkParams} {y : KbdSystem} {raw : Byte} {t : State} (hy : y.terminated = false)
    (h : step (y.machine.present raw) = .next t) :
    y.poll p (some raw) = .next (y.afterStep p t, polledChar t.out) := by
  simp [KbdSystem.poll, hy, h]

/-- Polling a byte that looks up the character `c`, at which the chain ends by the rule `e`. -/
theorem poll_some_of_applies (p : SinkParams) {y : KbdSystem} {raw c : Byte} {e : ChainEnd} (hr : Ready y.machine)
    (hy : y.terminated = false) (hlook : lookedUp y.machine (decodeByte y.machine.cfg raw) = some c)
    (h : e.Applies y.machine c) : ∃ z : KbdSystem,
      y.poll p (some raw) = .next (z, polledChar (chainOutputs e y.machine.regs c)) ∧
      z.sink = y.sink.accept p (chainOutputs e y.machine.regs c) := by
  have hstep := (step_present y.machine raw hr.1 hr.2).trans (exec_of_lookedUp hlook)
  rw [chainStep_of_applies h] at hstep
  exact ⟨_, poll_some_of_step hy hstep, rfl⟩

/-! ## The statements -/

/-- Settles O46: a machine that can accept a byte answers a next state, and every step keeps the invariant, so both hold along a
run. -/
theorem aLegalMachineNeverStops : Obligations.ALegalMachineNeverStops :=
  ⟨fun _ f => (nomatch f), fun n _ hs => run_keeps_inv n hs, fun s raw hs => step_next_of_ready (s := s.present raw) hs⟩

/-- Settles O32: the hook is driven where the chain ends at R90, which writes nothing. -/
theorem theDigitHookFiresExactlyOnAltWithADigit : Obligations.TheDigitHookFiresExactlyOnAltWithADigit := by
  intro i s t h
  obtain ⟨c, hlook, rfl⟩ | ⟨hlook, ⟨-, -, -, -, hdigit⟩, -⟩ := exec_lookedUp_cases h
  · rw [chainStep_altDigit_iff]
    refine ⟨by simp [hlook, ChainEnd.Applies], fun happ => ?_⟩
    rw [chainStep_of_applies happ]
    exact ⟨rfl, hlook, rfl⟩
  · simp [hlook, hdigit]

/-- Settles O35: the chain ends at R91 with the counter at 2, and the machine it leaves can accept a byte. -/
theorem shutdownIsTheThirdEscapeAndNothingSticks : Obligations.ShutdownIsTheThirdEscapeAndNothingSticks := by
  intro i s t h
  have hgoesOn (hs : Ready s) (raw : Byte) :
      step (t.present raw) = exec (decodeByte s.cfg raw) t ∧ ∃ u : State, step (t.present raw) = .next u := by
    have ht := exec_keeps_ready hs h
    exact ⟨exec_cfg h ▸ step_present t raw ht.1 ht.2, step_next_of_ready (s := t.present raw) ht⟩
  obtain ⟨c, hlook, rfl⟩ | ⟨hlook, ⟨hkind, -⟩, -⟩ := exec_lookedUp_cases h
  · rw [chainStep_shutdown_iff]
    refine ⟨?_, fun ⟨happ, hesc⟩ => ⟨?_, hgoesOn⟩⟩
    · rw [and_comm]
      simp only [hlook, Option.some.injEq, exists_eq_left']
      exact Iff.rfl
    · rw [chainStep_of_applies happ, hesc]
      rfl
  · simp [hlook, hkind]

/-- Settles O44: `out_char` is the looked-up character where the chain ends at R90 or at R95, and 0x00 elsewhere. -/
theorem theEventEncodingIsAsTabulated : Obligations.TheEventEncodingIsAsTabulated := by
  refine ⟨rfl, rfl, rfl, fun o => by cases o <;> decide, fun i s t h => ?_⟩
  have hvalid : t.out.outValid = true := by
    obtain ⟨u, hu, hvalid⟩ := exec_outValid i s
    obtain rfl := Host.Outcome.next.inj (hu.symm.trans h)
    exact hvalid
  refine ⟨hvalid, ?_⟩
  obtain ⟨c, hlook, rfl⟩ | ⟨-, ⟨hkind, hchar, -, -, hdigit⟩, -⟩ := exec_lookedUp_cases h
  · have hmapped : (chainStep s c).out.outKind = .char →
        lookedUp s i = some (chainStep s c).out.outChar ∧ (chainStep s c).out.outChar ≠ s.cfg.unmapped := by
      rw [chainStep_char_iff]
      intro happ
      rw [chainStep_of_applies happ]
      exact ⟨hlook, happ.1.1⟩
    refine ⟨fun hkind hdigit => ?_, fun _ hdigit => ?_, hmapped, fun hkind hzero => hzero ▸ (hmapped hkind).2,
      fun hkind => ?_⟩
    · exact chainStep_outChar_of_not (by simp [hdigit]) (by simp [hkind])
    · have happ := chainStep_altDigit_iff.1 hdigit
      rw [chainStep_of_applies happ]
      exact ⟨happ.2, hlook⟩
    · rw [chainStep_of_applies (chainStep_shutdown_iff.1 hkind).1]
      exact chainOutputs_outChar_of_ne (e := .escape) nofun nofun s.regs c
  · simp [hkind, hchar, hdigit]

/-- Settles O57: the chain ends at R93 or at R94, whose pulse the sink takes. -/
theorem thePolledLevelMovesByOneAndIsClamped : Obligations.ThePolledLevelMovesByOneAndIsClamped := by
  intro p y raw c hr hy hctrl hlook hu hx
  refine ⟨fun hinc => ?_, fun hdec => ?_⟩
  · exact poll_some_of_applies p hr hy hlook (verbInc_applies_iff.2 ⟨hu, hx, hctrl, hinc⟩)
  · obtain ⟨z, hpoll, hsink⟩ := poll_some_of_applies p hr hy hlook (verbDec_applies_iff.2 ⟨hu, hx, hctrl, hdec⟩)
    have hlevel : z.sink.level = y.sink.level - 1 := by rw [hsink]; rfl
    exact ⟨z, hpoll, by omega, by rw [hsink]; rfl⟩

/-- Settles O58: a ready byte takes the one step, whose outputs `poll` and the end of the run read. -/
theorem pollReturnsTheCharacterOfACharEvent : Obligations.PollReturnsTheCharacterOfACharEvent := by
  intro p y hr hy
  refine ⟨by simp [KbdSystem.poll, hy], fun raw => ?_⟩
  obtain ⟨t, hstep⟩ := step_next_of_ready (s := y.machine.present raw) hr
  exact ⟨_, _, poll_some_of_step hy hstep, hstep, fun h => if_pos h, fun h => if_neg h, decide_eq_true_iff⟩

/-- Settles O51: the presented cycle is an idle one. -/
theorem aCycleWithoutAByteKeepsTheState : Obligations.ACycleWithoutAByteKeepsTheState := by
  intro s raw rest ⟨hwf, hdone⟩ hin
  rw [step_of_wf s hwf, currentCycle_of_inputs_cons hin, takeCycle_of_inputs_cons hin]
  simp only [runCycle, hdone]
  rfl

end Sys2Proof.Machine
end

section
/-! SUPPORT. The reset cycle, and the proof of its statement in 70_reset_and_hazards.md. -/

namespace Sys2Proof.Machine

/-- `rst` wins over a byte in the same cycle, and needs no reset before it (70_reset_and_hazards.md R130). -/
theorem step_of_rst {s : State} (hwf : s.cfg.Wf) (hrst : (currentCycle s).rst = true) :
    step s = .next (resetCycle (takeCycle s)) := by
  rw [step_of_wf s hwf, runCycle, if_pos hrst]

/-- Settles O50: the cycle at the ports is a reset cycle, and taking it drops it with its byte. -/
theorem aResetCycleClearsTheRegistersAndTakesNoByte : Obligations.AResetCycleClearsTheRegistersAndTakesNoByte := by
  intro s valid raw rest hwf hin
  have hrst : (currentCycle s).rst = true := by rw [currentCycle_of_inputs_cons hin]
  rw [step_of_rst hwf hrst, takeCycle_of_inputs_cons hin]
  rfl

end Sys2Proof.Machine
end

section
/-! SUPPORT. Decoding an encoded instruction, when a step is refused, and the proofs of the statements of 30_encoding.md and
00_scope.md. -/

namespace Sys2Proof

open Machine

/-! ## Decoding inverts encoding -/

@[simp] theorem keyCode_encodeByte (i : Instr) : keyCode (encodeByte i) = i.code := by
  rw [encodeByte_eq]
  split <;> simp

@[simp] theorem releaseFlag_encodeByte (i : Instr) : releaseFlag (encodeByte i) = i.released := by
  rw [encodeByte_eq]
  split <;> simp [*]

/-- A well-formed instruction's code is classified as its class, and its byte carries its other two fields. -/
theorem decodeByte_encodeByte {c : Config} (hc : c.Wf) {i : Instr} (hi : i.Wf c) :
    decodeByte c (encodeByte i) = i := by
  rw [decodeByte, keyCode_encodeByte, releaseFlag_encodeByte, classify_of_admits c hc i.code i.keyClass hi]
  exact assemble_of_fields i

/-! ## Well-formed parameter sets -/

theorem romsFull_of_wf {c : Config} (hc : c.Wf) : c.RomsFull := by
  obtain ⟨-, -, hfull, -⟩ := hc
  exact hfull

/-- A full table has the entry of every key code (20_memory.md R42). -/
theorem getElem?_table_of_full {c : Config} (hc : c.RomsFull) (t : Table) (k : KeyCode) :
    (c.table t)[k.toNat]? = some (romRead c t k) := by
  have hlen : (c.table t).length = 128 := by
    cases t
    · exact hc.1
    · exact hc.2
  have hk : k.toNat < (c.table t).length := hlen ▸ k.isLt
  rw [romRead_eq_getD, List.getD_eq_getElem _ _ hk, List.getElem?_eq_getElem hk]

theorem getElem?_primaryRom_of_full {c : Config} (hc : c.RomsFull) (k : KeyCode) :
    c.primaryRom[k.toNat]? = some (entry c false k) :=
  (getElem?_table_of_full hc .primary k).trans (congrArg some (romRead_eq_getD c .primary k))

theorem getElem?_secondaryRom_of_full {c : Config} (hc : c.RomsFull) (k : KeyCode) :
    c.secondaryRom[k.toNat]? = some (entry c true k) :=
  (getElem?_table_of_full hc .secondary k).trans (congrArg some (romRead_eq_getD c .secondary k))

/-- R8(a) as one list of pairwise disjoint sets (00_scope.md R8): both say of each two of the five that they share no code. -/
theorem setsDisjoint_iff_pairwise (c : Config) : c.SetsDisjoint ↔
    [c.ctrlCodes, c.altCodes, c.shiftCodes, [c.capsCode], [c.numCode]].Pairwise List.Disjoint := by
  simp [Config.SetsDisjoint, List.Disjoint, forall_and]

/-- R8(d) as reads of the two tables (00_scope.md R8). -/
theorem sourceEntries_iff_entries {c : Config} (hc : c.RomsFull) : c.SourceEntries ↔
    (c.sourceHardware = true → entry c false 0x1E = 0x61 ∧ entry c true 0x1E = 0x41) := by
  have hprimary : c.primaryRom[0x1E]? = some (entry c false 0x1E) := getElem?_primaryRom_of_full hc 0x1E
  have hsecondary : c.secondaryRom[0x1E]? = some (entry c true 0x1E) := getElem?_secondaryRom_of_full hc 0x1E
  rw [Config.SourceEntries, hprimary, hsecondary, Option.some.injEq, Option.some.injEq]

theorem referenceConfig_wf : referenceConfig.Wf := by decide +kernel

end Sys2Proof

namespace Sys2Proof.Machine

/-- The refusal for an ill-formed parameter set comes from the check alone, in no cycle under a well-formed set. -/
theorem step_illFormed_iff (s : State) : step s = .refused .illFormedConfig ↔ ¬ s.cfg.Wf := by
  refine ⟨fun h hwf => ?_, fun h => if_neg h⟩
  rw [step_of_wf s hwf, runCycle] at h
  split_ifs at h
  · cases h
  · obtain ⟨r, o, hexec⟩ := exec_eq_commit (decodeByte (takeCycle s).cfg (currentCycle s).inByte) (takeCycle s)
    cases hexec.symm.trans h

/-! ## The statements -/

/-- Settles O3: the one encoded byte decodes to its instruction. -/
theorem decodeInvertsEncode : Obligations.DecodeInvertsEncode := fun _ hc _ hi rest =>
  congrArg (fun j => Except.ok (j, rest)) (decodeByte_encodeByte hc hi)

/-- Settles O2: a byte decodes to a well-formed instruction of that byte, and any other such instruction is its decoding too. -/
theorem everyByteIsInExactlyOneClass : Obligations.EveryByteIsInExactlyOneClass := by
  refine fun c hc raw => ⟨decodeByte c raw, decodeByte_wf c raw, encodeByte_decodeByte c raw, fun j hj henc => ?_⟩
  rw [← henc, decodeByte_encodeByte hc hj]

/-- Settles O5: each clause is one branch of the classification, which reads the byte's code alone. -/
theorem classificationTakesTheFirstTestThatHolds : Obligations.ClassificationTakesTheFirstTestThatHolds := by
  refine ⟨fun c k => ⟨?_, ?_, ?_, ?_, ?_, ?_, ?_⟩, fun c raw raw' h => ?_, fun s h => ?_⟩
  · intro hctrl
    exact if_pos hctrl
  · intro hctrl halt
    rw [classify, if_neg hctrl, if_pos halt]
  · intro hctrl halt hshift
    rw [classify, if_neg hctrl, if_neg halt, if_pos hshift]
  · intro hctrl halt hshift hcaps
    rw [classify, if_neg hctrl, if_neg halt, if_neg hshift, if_pos hcaps]
  · intro hctrl halt hshift hcaps hnum
    rw [classify, if_neg hctrl, if_neg halt, if_neg hshift, if_neg hcaps, if_pos hnum]
  · rintro ⟨hctrl, halt, hshift, hcaps, hnum⟩ hpad
    rw [classify, if_neg hctrl, if_neg halt, if_neg hshift, if_neg hcaps, if_neg hnum]
    exact if_pos hpad
  · rintro ⟨hctrl, halt, hshift, hcaps, hnum⟩ hpad
    rw [classify, if_neg hctrl, if_neg halt, if_neg hshift, if_neg hcaps, if_neg hnum]
    exact if_neg hpad
  · rw [decodeByte_keyClass, decodeByte_keyClass, ← setWidth_and_eq_keyCode, h, setWidth_and_eq_keyCode]
  · exact (step_illFormed_iff s).2 fun ⟨hdisj, _⟩ => h hdisj

/-- Settles O8: the refusal comes from the checks of R8, each in the form the statement gives it. -/
theorem onlyAParameterSetThatFailsACheckIsRefused : Obligations.OnlyAParameterSetThatFailsACheckIsRefused := by
  refine ⟨fun s => (step_illFormed_iff s).trans (not_congr ?_), fun c hc m k hk _ =>
    classify_of_admits c hc k (.mod m) (admits_mod_iff.2 hk)⟩
  exact and_congr (setsDisjoint_iff_pairwise s.cfg) (and_congr Iff.rfl
    (and_congr_right fun hfull => and_congr_right fun _ => sourceEntries_iff_entries hfull))

/-- Settles O9: the checks by evaluation, the two entries from the tables. -/
theorem referenceParametersAreWellFormed : Obligations.ReferenceParametersAreWellFormed :=
  ⟨referenceConfig_wf, rfl, rfl, rfl⟩

end Sys2Proof.Machine
end

section
/-! SUPPORT. What one instruction writes of each register, the escape counter along a run of bytes, and the proofs of the statements
of 10_state.md, 20_memory.md, 40_modifier_keys.md and 41_regular_keys.md. -/

namespace Sys2Proof.Machine

/-! ## The registers an instruction writes (10_state.md R35) -/

@[simp] theorem regularMake_held (t : Table) (k : KeyCode) (s : State) (m : Modifier) :
    (regularMake t k s).regs.held m = s.regs.held m := by cases m <;> rfl

@[simp] theorem regularMake_latch (t : Table) (k : KeyCode) (s : State) (l : Lock) :
    latch (regularMake t k s).regs l = latch s.regs l := by cases l <;> rfl

/-- A momentary class writes its own bit and no other class writes it. -/
theorem exec_held {i : Instr} {s t : State} (h : exec i s = .next t) (m : Modifier) :
    t.regs.held m = if i.keyClass = .mod m then !i.released else s.regs.held m := by
  obtain ⟨n, hn, he⟩ | ⟨l, hl, -, he⟩ | ⟨⟨l, hl⟩, -, he⟩ | ⟨hl | hl, -, he⟩ | ⟨hi, he⟩ | ⟨hi, he⟩ := exec_cases i s <;>
    obtain rfl := Host.Outcome.next.inj (he.symm.trans h)
  · by_cases hm : m = n
    · subst hm
      simp [momentary, hn]
    · simp [momentary, hn, setHeld_held_of_ne _ _ _ _ hm, Ne.symm hm]
  · simp [toggleLock, hl]
  · simp [noEffect, hl]
  · simp [noEffect, hl]
  · simp [noEffect, hl]
  · rw [regularMake_held, hi]
    rfl
  · rw [regularMake_held, hi]
    rfl

/-- A lock's make byte inverts its own latch and no other byte writes it. -/
theorem exec_latch {i : Instr} {s t : State} (h : exec i s = .next t) (l : Lock) :
    latch t.regs l = if i.keyClass = .lock l ∧ i.released = false then !latch s.regs l else latch s.regs l := by
  obtain ⟨m, hm, he⟩ | ⟨n, hn, hr, he⟩ | ⟨-, hr, he⟩ | ⟨-, hr, he⟩ | ⟨hi, he⟩ | ⟨hi, he⟩ := exec_cases i s <;>
    obtain rfl := Host.Outcome.next.inj (he.symm.trans h)
  · simp [momentary, hm]
  · by_cases hl : l = n
    · subst hl
      simp [toggleLock, hn, hr]
    · simp [toggleLock, hn, latch_toggle_of_ne _ hl, Ne.symm hl]
  · simp [noEffect, hr]
  · simp [noEffect, hr]
  · rw [regularMake_latch, hi]
    rfl
  · rw [regularMake_latch, hi]
    rfl

/-- Only a regular make byte looks up a character. -/
theorem lookedUp_eq_none {s : State} {i : Instr}
    (hi : ¬ ((i.keyClass = .key ∨ i.keyClass = .keypad) ∧ i.released = false)) : lookedUp s i = none := by
  cases i with
  | keyMake k => exact absurd ⟨.inl rfl, rfl⟩ hi
  | keypadMake k => exact absurd ⟨.inr rfl, rfl⟩ hi
  | ctrlMake | ctrlBreak | altMake | altBreak | shiftMake | shiftBreak
  | capsMake | capsBreak | numMake | numBreak | keypadBreak | keyBreak => rfl

/-- Only a regular make byte may change the counter. -/
theorem exec_esc {i : Instr} {s t : State} (h : exec i s = .next t)
    (hi : ¬ ((i.keyClass = .key ∨ i.keyClass = .keypad) ∧ i.released = false)) : t.regs.esc = s.regs.esc :=
  (exec_of_lookedUp_none (lookedUp_eq_none hi) h).2

/-- Setting a clear modifier and clearing it again restores the register file. -/
theorem setHeld_true_setHeld_false {r : RegFile} {m : Modifier} (h : r.held m = false) :
    (r.setHeld true m).setHeld false m = r := by
  cases m
  · exact congrArg (fun v => { r with ctrl := v }) h.symm
  · exact congrArg (fun v => { r with alt := v }) h.symm
  · exact congrArg (fun v => { r with shift := v }) h.symm

/-- A key whose entry is a plain character reports it and changes no register. -/
theorem exec_keyMake_of_plain_char {s : State} {k : KeyCode} {c : Byte}
    (hentry : entry s.cfg (s.regs.shift ^^ s.regs.caps) k = c) (hu : c ≠ s.cfg.unmapped) (hx : c ≠ s.cfg.escChar)
    (halt : s.regs.alt = false) (hctrl : s.regs.ctrl = false) (hesc : s.regs.esc = 0) :
    exec (.keyMake k) s = .next { s with out := { quiet s.regs with outKind := .char, outChar := c } } := by
  rw [exec_keyMake, hentry, chainStep_of_plain_char hu hx halt hctrl hesc]

/-! ## Reads past the table (20_memory.md R42) -/

/-- An index past the table fails closed (20_memory.md R42). -/
theorem romReadIndex_of_le (c : Config) (t : Table) {n : Nat} (hn : 128 ≤ n) : romReadIndex c t n = c.unmapped :=
  if_neg (Nat.not_lt.2 hn)

/-! ## The escape counter along a run of bytes (41_regular_keys.md R104) -/

/-- A byte bears on the counter by the rule at which its looked-up character ends the chain, and keeps it if it looks none up. -/
theorem escEffect_eq (s : State) (raw : Byte) : escEffect s.cfg s.regs raw =
    (lookedUp s (decodeByte s.cfg raw)).elim .keep fun c => (chainEnd s.cfg s.regs c).escEffect := by
  unfold escEffect
  cases decodeByte s.cfg raw with
  | keyMake k => simp only [lookedUp, Option.elim_some, romRead_selectKey]
  | keypadMake k => simp only [lookedUp, Option.elim_some, romRead_selectKeypad]
  | ctrlMake | ctrlBreak | altMake | altBreak | shiftMake | shiftBreak
  | capsMake | capsBreak | numMake | numBreak | keypadBreak | keyBreak => rfl

/-- The escape presses of one byte that does not clear the counter. -/
def EscEffect.presses : EscEffect → Nat
  | .count => 1
  | .keep | .clear => 0

/-- The SHUTDOWN events among the outputs of one step. -/
def Outputs.shutdowns (o : Outputs) : Nat := if o.outKind = .shutdown then 1 else 0

theorem chainOutputs_not_char_of_not_clear {e : ChainEnd} (he : e.escEffect ≠ .clear) (r : RegFile) (ch : Byte) :
    (chainOutputs e r ch).outKind ≠ .char := by
  rw [Ne, chainOutputs_char_iff]
  rintro rfl
  exact he rfl

/-- Each press is counted in the counter or in a SHUTDOWN. -/
theorem chainEsc_balance {e : ChainEnd} (he : e.escEffect ≠ .clear) (r : RegFile) (ch : Byte) :
    3 * (chainOutputs e r ch).shutdowns + (chainEsc e r.esc).val = r.esc.val + e.escEffect.presses := by
  cases e with
  | unmapped | altDigit => exact Nat.zero_add _
  | escape =>
    simp only [Outputs.shutdowns, chainOutputs, chainEsc, ChainEnd.escEffect, EscEffect.presses]
    obtain ⟨-, hsucc, hreach⟩ | ⟨hesc, hzero, hreach⟩ := escSucc_cases r.esc
    · simp [hsucc, hreach]
    · have hval : r.esc.val = 2 := congrArg Fin.val hesc
      simp [hval, hzero, hreach]
  | verbInc | verbDec | char => exact absurd rfl he

/-- A byte that does not clear the counter reports no character, and its press is counted in the counter or in a SHUTDOWN. -/
theorem exec_esc_balance {s t : State} {raw : Byte} (h : exec (decodeByte s.cfg raw) s = .next t)
    (he : escEffect s.cfg s.regs raw ≠ .clear) :
    3 * t.out.shutdowns + t.regs.esc.val = s.regs.esc.val + (escEffect s.cfg s.regs raw).presses ∧
    t.out.outKind ≠ .char := by
  rw [escEffect_eq] at he ⊢
  obtain ⟨c, hlook, rfl⟩ | ⟨hlook, ⟨hkind, -⟩, hesc⟩ := exec_lookedUp_cases h <;> rw [hlook] at he ⊢
  · exact ⟨chainEsc_balance he s.regs c, chainOutputs_not_char_of_not_clear he s.regs c⟩
  · simp [Outputs.shutdowns, hkind, hesc, EscEffect.presses]

/-- A ready machine takes each byte and stays ready, and its registers move as the listing says. -/
theorem step_present_of_ready {s : State} (raw : Byte) (hs : Ready s) : ∃ t : State,
    step (s.present raw) = .next t ∧ exec (decodeByte s.cfg raw) s = .next t ∧ Ready t ∧ t.cfg = s.cfg ∧
    t.regs = (decodeListing s.cfg s.regs raw).1 := by
  have hstep := aStepIsTheListingOfTheDecodeFunction s raw hs
  have hexec := (step_present s raw hs.1 hs.2).symm.trans hstep
  exact ⟨_, hstep, hexec, exec_keeps_ready hs hexec, exec_cfg hexec, rfl⟩

theorem escPresses_cons_cases {c : Config} {r : RegFile} {raw : Byte} {rest : List Byte} {n : Nat}
    (h : escPresses c r (raw :: rest) = some n) : escEffect c r raw ≠ .clear ∧
    ∃ m, escPresses c (decodeListing c r raw).1 rest = some m ∧ n = m + (escEffect c r raw).presses := by
  rw [escPresses] at h
  cases he : escEffect c r raw <;> rw [he] at h
  case keep => exact ⟨nofun, n, h, rfl⟩
  case count =>
    obtain ⟨m, hm, rfl⟩ := Option.map_eq_some_iff.1 h
    exact ⟨nofun, m, hm, rfl⟩
  case clear => cases h

/-- Along a run that no byte clears, each press is counted in the counter or in a SHUTDOWN. -/
theorem runBytes_esc_balance {s : State} {bytes : List Byte} {n : Nat} (hs : Ready s)
    (h : escPresses s.cfg s.regs bytes = some n) : ∃ (t : State) (outs : List Outputs),
      runBytes bytes s = .next (t, outs) ∧
      3 * outs.countP (fun o => o.outKind = .shutdown) + t.regs.esc.val = s.regs.esc.val + n ∧
      outs.countP (fun o => o.outKind = .char) = 0 := by
  induction bytes generalizing s n with
  | nil =>
    obtain rfl : 0 = n := Option.some.inj h
    exact ⟨s, [], rfl, by simp⟩
  | cons raw rest ih =>
    obtain ⟨he, m, hm, rfl⟩ := escPresses_cons_cases h
    obtain ⟨u, hstep, hexec, hu, hcfg, hregs⟩ := step_present_of_ready raw hs
    rw [← hregs, ← hcfg] at hm
    obtain ⟨t, outs, hrun, hshutdowns, hchars⟩ := ih hu hm
    obtain ⟨hbalance, hkind⟩ := exec_esc_balance hexec he
    refine ⟨t, u.out :: outs, runBytes_cons_of_next hstep hrun, ?_, ?_⟩
    · simp only [List.countP_cons, decide_eq_true_eq]
      unfold Outputs.shutdowns at hbalance
      omega
    · simpa [List.countP_cons, hkind] using hchars

/-- A byte that clears the counter leaves it 0 and requests no shutdown. -/
theorem exec_of_escEffect_clear {s t : State} {raw : Byte} (h : exec (decodeByte s.cfg raw) s = .next t)
    (he : escEffect s.cfg s.regs raw = .clear) : t.regs.esc = 0 ∧ t.out.outKind ≠ .shutdown := by
  rw [escEffect_eq] at he
  obtain ⟨c, hlook, rfl⟩ | ⟨hlook, -, -⟩ := exec_lookedUp_cases h <;> rw [hlook] at he
  · refine ⟨chainEsc_of_clear _ he, fun hkind => ?_⟩
    have hescape : chainEnd s.cfg s.regs c = .escape := ((chainOutputs_shutdown_iff _ _ _).1 hkind).1
    rw [Option.elim_some, hescape] at he
    cases he
  · cases he

/-! ## The statements -/

/-- Settles O24: the pair writes the modifier's bit twice, and `momentary_eq` says which writes drive a trace. -/
theorem pressThenReleaseRestoresAClearModifier : Obligations.PressThenReleaseRestoresAClearModifier := by
  intro s m hs k hk
  have hpress := step_present_makeByte_of_mod hs hk
  have hrelease := step_present_breakByte_of_mod (s := momentary m true s) hs hk
  refine ⟨_, _, _, runBytes_cons_of_next hpress (runBytes_cons_of_next hrelease rfl), fun hclear => ?_, fun hset => ?_⟩
  · have hheld : (momentary m true s).regs.held m = true := setHeld_held _ _ _
    refine ⟨setHeld_true_setHeld_false hclear, ?_, ?_⟩
    · rw [momentary_eq]
      exact if_pos hclear
    · rw [momentary_eq]
      simp only [hheld, Bool.not_false, if_true]
      exact ⟨rfl, rfl, rfl⟩
  · have hheld : (momentary m false (momentary m true s)).regs.held m = false := setHeld_held _ _ _
    refine ⟨hheld, fun heq => ?_⟩
    rw [heq, hset] at hheld
    cases hheld

/-- Settles O30: the select signal of R87 is 0 when SHIFT and CAPS agree and 1 when they differ. -/
theorem exactlyOneOfShiftAndCapsGivesTheSecondaryEntry :
    Obligations.ExactlyOneOfShiftAndCapsGivesTheSecondaryEntry := by
  intro s k hc hreg hpad
  have hprimary := getElem?_primaryRom_of_full (romsFull_of_wf hc) k
  have hsecondary := getElem?_secondaryRom_of_full (romsFull_of_wf hc) k
  have hchain := chainResult_keyMake k s
  refine ⟨decodeByte_makeByte_of_admits hc .key ⟨hreg, hpad⟩, fun c hentry heq => ?_, fun c hentry hne => ?_,
    _, _, hprimary, hsecondary⟩
  · obtain rfl := Option.some.inj (hprimary.symm.trans hentry)
    rwa [heq, Bool.xor_self] at hchain
  · obtain rfl := Option.some.inj (hsecondary.symm.trans hentry)
    rwa [Bool.xor_iff_ne.2 hne] at hchain

/-- Settles O31: the select signal is 1 with CAPS alone and 0 with CAPS and SHIFT, whatever the key. -/
theorem capsLockIsNotLetterOnly : Obligations.CapsLockIsNotLetterOnly := by
  refine ⟨fun s k hcaps hshift => ?_, fun s k hcaps hshift => ?_, ?_, ?_⟩
  · simpa [hcaps, hshift] using chainResult_keyMake k s
  · simpa [hcaps, hshift] using chainResult_keyMake k s
  · rintro ⟨_, _, done, inputs, out⟩ rfl rfl
    exact exec_keyMake_of_plain_char rfl (by simp [referenceConfig]) (by simp [referenceConfig]) rfl rfl rfl
  · rintro ⟨_, _, done, inputs, out⟩ rfl rfl
    exact exec_keyMake_of_plain_char rfl (by simp [referenceConfig]) (by simp [referenceConfig]) rfl rfl rfl

/-- Settles O36: three times the SHUTDOWNs of a run and the counter it ends at make up the presses, and the counter is below 3. -/
theorem everyThirdEscapeOfARunRequestsShutdown : Obligations.EveryThirdEscapeOfARunRequestsShutdown := by
  refine ⟨fun s bytes n hs h => ?_, fun s raw hs he => ?_⟩
  · obtain ⟨t, outs, hrun, hbalance, hchars⟩ := runBytes_esc_balance hs h
    exact ⟨t, outs, hrun, by omega, by omega, hchars⟩
  · obtain ⟨t, hstep, hexec, -⟩ := step_present_of_ready raw hs
    exact ⟨t, hstep, exec_of_escEffect_clear hexec he⟩

/-- Settles O38: the write map, one register a rule. -/
theorem eachClassWritesOnlyItsFieldOfTheWriteMap : Obligations.EachClassWritesOnlyItsFieldOfTheWriteMap := by
  refine ⟨fun i s => ?_, fun s cycle rest hwf hin hrst => ?_⟩
  · obtain ⟨r, o, h⟩ := exec_eq_commit i s
    have hheld (m : Modifier) := (apply_ite (Eq _) _ _ _).mp (exec_held h m)
    have hlatch (l : Lock) := (apply_ite (Eq _) _ _ _).mp (exec_latch h l)
    exact ⟨_, h, hheld .ctrl, hheld .alt, hheld .shift, hlatch .caps, hlatch .num, exec_esc h, rfl, rfl, rfl⟩
  · rw [← currentCycle_of_inputs_cons hin] at hrst
    exact ⟨_, step_of_rst hwf hrst, rfl⟩

/-- Settles O43: a full table has the entry of every key code, and past the table the chain ends at R89. -/
theorem aRomReadStaysInsideTheTable : Obligations.ARomReadStaysInsideTheTable := by
  refine ⟨fun c t k hc => getElem?_table_of_full hc t k, fun c t n hn => romReadIndex_of_le c t hn, fun s t n hn => ?_⟩
  rw [romReadIndex_of_le s.cfg t hn, chainEnd_of_applies (s := s) (e := .unmapped) rfl]
  exact ⟨rfl, rfl⟩

end Sys2Proof.Machine
end

section
/-! SUPPORT. The pulses and `modstat` of a cycle, runs of a held key, `get_blocking`, and the proofs of the statements of
60_exceptions.md and 70_reset_and_hazards.md. -/

namespace Sys2Proof.Machine

/-! ## modstat (70_reset_and_hazards.md R135) -/

@[simp] theorem traceOutputs_modstat (r : RegFile) (m : Modifier) (v : Bool) :
    (traceOutputs r m v).modstat = modstat r := by
  obtain ⟨-, h⟩ | ⟨-, h⟩ := traceOutputs_cases r m v <;> rw [h] <;> rfl

theorem exec_modstat {i : Instr} {s t : State} (h : exec i s = .next t) : t.out.modstat = modstat s.regs := by
  obtain ⟨m, -, he⟩ | ⟨l, -, -, he⟩ | ⟨-, -, he⟩ | ⟨-, -, he⟩ | ⟨-, he⟩ | ⟨-, he⟩ := exec_cases i s <;>
    obtain rfl := Host.Outcome.next.inj (he.symm.trans h)
  · exact traceOutputs_modstat _ _ _
  · rfl
  · rfl
  · rfl
  · exact chainOutputs_modstat _ _ _
  · exact chainOutputs_modstat _ _ _

theorem step_modstat {s t : State} (h : step s = .next t) : t.out.modstat = modstat s.regs := by
  obtain ⟨-, ⟨-, rfl⟩ | ⟨-, -, -, hexec⟩ | ⟨-, -, -, rfl⟩⟩ := step_cases h
  · rfl
  · exact exec_modstat (s := takeCycle s) hexec
  · rfl

/-! ## Runs of a held key (70_reset_and_hazards.md R137) -/

/-- Only a break byte of a modifier's set clears its bit. -/
theorem exec_keeps_held {s t : State} {m : Modifier} {raw : Byte} (h : exec (decodeByte s.cfg raw) s = .next t)
    (hheld : s.regs.held m = true) (hbreak : ∀ k ∈ modCodes s.cfg m, raw ≠ breakByte k) : t.regs.held m = true := by
  rw [exec_held h m, decodeByte_keyClass, decodeByte_released]
  split
  next hclass =>
    have hmem : keyCode raw ∈ modCodes s.cfg m := admits_mod_iff.1 (hclass ▸ admits_classify s.cfg (keyCode raw))
    cases hr : releaseFlag raw with
    | false => rfl
    | true =>
      have hraw := byte_eq_fields raw
      rw [hr] at hraw
      exact absurd hraw.symm (hbreak _ hmem)
  next => exact hheld

theorem runBytes_keeps_held {s : State} {m : Modifier} {bytes : List Byte} (hs : Ready s)
    (hheld : s.regs.held m = true) (hbreak : ∀ raw ∈ bytes, ∀ k ∈ modCodes s.cfg m, raw ≠ breakByte k) :
    ∃ (t : State) (outs : List Outputs), runBytes bytes s = .next (t, outs) ∧ t.regs.held m = true := by
  induction bytes generalizing s with
  | nil => exact ⟨s, [], rfl, hheld⟩
  | cons raw rest ih =>
    obtain ⟨hfirst, hrest⟩ := List.forall_mem_cons.1 hbreak
    obtain ⟨u, hstep, hexec, hu, hcfg, -⟩ := step_present_of_ready raw hs
    obtain ⟨t, outs, hrun, ht⟩ := ih hu (exec_keeps_held hexec hheld hfirst) (hcfg ▸ hrest)
    exact ⟨t, u.out :: outs, runBytes_cons_of_next hstep hrun, ht⟩

/-- The byte `raw` is an escape press (41_regular_keys.md R91). -/
structure PressesEscape (s : State) (raw : Byte) : Prop where
  ready : Ready s
  looks : lookedUp s (decodeByte s.cfg raw) = some s.cfg.escChar
  applies : ChainEnd.escape.Applies s s.cfg.escChar

/-- The counter and the outputs do not bear on the character a byte looks up. -/
theorem lookedUp_with_esc (s : State) (esc : Fin 3) (o : Outputs) (i : Instr) :
    lookedUp (commit { s.regs with esc := esc } o s) i = lookedUp s i := by
  cases i <;> rfl

/-- An escape press moves the counter alone, and the same byte is then an escape press again. -/
theorem PressesEscape.again {s : State} {raw : Byte} (h : PressesEscape s raw) : ∃ t : State,
    step (s.present raw) = .next t ∧ PressesEscape t raw ∧
    t.regs = { s.regs with esc := escSucc s.regs.esc } ∧
    t.out.outKind = if escReaches s.regs.esc then .shutdown else .none := by
  have hstep := (step_present s raw h.ready.1 h.ready.2).trans (exec_of_lookedUp h.looks)
  rw [chainStep_of_applies h.applies] at hstep
  refine ⟨_, hstep, ⟨h.ready, (lookedUp_with_esc s _ _ _).trans h.looks, h.applies⟩, rfl, ?_⟩
  simp only [commit_out, chainOutputs]
  split <;> rfl

/-! ## `get_blocking` (60_exceptions.md R122, R123) -/

theorem poll_of_terminated {p : SinkParams} {y : KbdSystem} (hy : y.terminated = true) (ready : Option Byte) :
    y.poll p ready = .next (y, none) := if_pos hy

theorem getBlocking_of_terminated {p : SinkParams} {y : KbdSystem} (hy : y.terminated = true)
    (answers : List (Option Byte)) : y.getBlocking p answers = .next (y, .terminated, answers) := by
  cases answers with
  | nil => simp [KbdSystem.getBlocking, hy]
  | cons ready rest => exact if_pos hy

theorem getBlocking_nil {p : SinkParams} {y : KbdSystem} (hy : y.terminated = false) :
    y.getBlocking p [] = .next (y, .waiting, []) := by
  simp [KbdSystem.getBlocking, hy]

theorem getBlocking_cons_of_some {p : SinkParams} {y z : KbdSystem} {ready : Option Byte} {c : Byte}
    (hy : y.terminated = false) (h : y.poll p ready = .next (z, some c)) (rest : List (Option Byte)) :
    y.getBlocking p (ready :: rest) = .next (z, .char c, rest) := by
  simp [KbdSystem.getBlocking, hy, h]

theorem getBlocking_cons_of_none {p : SinkParams} {y z : KbdSystem} {ready : Option Byte}
    (hy : y.terminated = false) (h : y.poll p ready = .next (z, none)) (rest : List (Option Byte)) :
    y.getBlocking p (ready :: rest) = z.getBlocking p rest := by
  simp [KbdSystem.getBlocking, hy, h]

/-- A poll of a run that goes on: a character, or the end of the run by SHUTDOWN, or neither. -/
theorem poll_cases (p : SinkParams) {y : KbdSystem} (ready : Option Byte) (hr : Ready y.machine)
    (hy : y.terminated = false) : ∃ z : KbdSystem, Ready z.machine ∧
    ((∃ c, y.poll p ready = .next (z, some c) ∧ z.terminated = false) ∨
     (y.poll p ready = .next (z, none) ∧ z.terminated = true ∧ z.machine.out.outKind = .shutdown) ∨
     (y.poll p ready = .next (z, none) ∧ z.terminated = false)) := by
  obtain ⟨hnone, hsome⟩ := pollReturnsTheCharacterOfACharEvent p y hr hy
  cases ready with
  | none => exact ⟨y, hr, .inr (.inr ⟨hnone, hy⟩)⟩
  | some raw =>
    obtain ⟨z, r, hpoll, hstep, hchar, hnoChar, hend⟩ := hsome raw
    have hz : Ready z.machine := exec_keeps_ready hr ((step_present y.machine raw hr.1 hr.2).symm.trans hstep)
    refine ⟨z, hz, ?_⟩
    cases hkind : z.machine.out.outKind with
    | char =>
      rw [hchar hkind] at hpoll
      exact .inl ⟨_, hpoll, by simpa [hkind] using hend⟩
    | shutdown =>
      rw [hnoChar (by simp [hkind])] at hpoll
      exact .inr (.inl ⟨hpoll, hend.2 hkind, rfl⟩)
    | none =>
      rw [hnoChar (by simp [hkind])] at hpoll
      exact .inr (.inr ⟨hpoll, by simpa [hkind] using hend⟩)

/-- What a call of `get_blocking` that no longer waits has asked for: the answers it waited through and the one of its last poll. -/
def EndsAtLastPoll (p : SinkParams) (y z : KbdSystem) (b : Blocking) (asked : List (Option Byte)) : Prop :=
  ∃ (before : List (Option Byte)) (ready : Option Byte) (x : KbdSystem),
    asked = before ++ [ready] ∧ y.getBlocking p before = .next (x, .waiting, []) ∧
    (∀ c : Byte, b = .char c → x.poll p ready = .next (z, some c) ∧ z.terminated = false) ∧
    (b = .terminated → x.poll p ready = .next (z, none) ∧ z.terminated = true ∧ z.machine.out.outKind = .shutdown)

/-- A poll without a character before the others is one more answer waited through. -/
theorem EndsAtLastPoll.cons {p : SinkParams} {y y' z : KbdSystem} {b : Blocking} {ready : Option Byte}
    {asked : List (Option Byte)} (hy : y.terminated = false) (hpoll : y.poll p ready = .next (y', none))
    (h : EndsAtLastPoll p y' z b asked) : EndsAtLastPoll p y z b (ready :: asked) := by
  obtain ⟨before, last, x, rfl, hbefore, hresult⟩ := h
  exact ⟨ready :: before, last, x, rfl, (getBlocking_cons_of_none hy hpoll before).trans hbefore, hresult⟩

theorem getBlocking_asks (p : SinkParams) (answers : List (Option Byte)) {y : KbdSystem} (hr : Ready y.machine)
    (hy : y.terminated = false) : ∃ (z : KbdSystem) (b : Blocking) (rest asked : List (Option Byte)),
      y.getBlocking p answers = .next (z, b, rest) ∧ answers = asked ++ rest ∧
      (b = .waiting → z.terminated = false ∧ rest = []) ∧ (b ≠ .waiting → EndsAtLastPoll p y z b asked) := by
  induction answers generalizing y with
  | nil => exact ⟨y, .waiting, [], [], getBlocking_nil hy, rfl, fun _ => ⟨hy, rfl⟩, fun h => absurd rfl h⟩
  | cons ready rest ih =>
    have hnil : y.getBlocking p [] = .next (y, .waiting, []) := getBlocking_nil hy
    obtain ⟨z, hz, ⟨c, hpoll, hgoes⟩ | ⟨hpoll, hends⟩ | ⟨hpoll, hgoes⟩⟩ := poll_cases p ready hr hy
    · refine ⟨z, .char c, rest, [ready], getBlocking_cons_of_some hy hpoll rest, rfl, nofun, fun _ => ?_⟩
      refine ⟨[], ready, y, rfl, hnil, fun c' hc => ?_, nofun⟩
      obtain rfl := Blocking.char.inj hc
      exact ⟨hpoll, hgoes⟩
    · have hrun := (getBlocking_cons_of_none hy hpoll rest).trans (getBlocking_of_terminated hends.1 rest)
      exact ⟨z, .terminated, rest, [ready], hrun, rfl, nofun,
        fun _ => ⟨[], ready, y, rfl, hnil, nofun, fun _ => ⟨hpoll, hends⟩⟩⟩
    · obtain ⟨w, b, left, asked, hrun, rfl, hwaits, hdone⟩ := ih hz hgoes
      exact ⟨w, b, left, ready :: asked, (getBlocking_cons_of_none hy hpoll _).trans hrun, rfl, hwaits,
        fun hb => (hdone hb).cons hy hpoll⟩

/-! ## The statements -/

/-- Settles O47: the outputs of each kind of cycle are legal, and nothing else of the invariant moves. -/
theorem everyStepKeepsTheStateLegal : Obligations.EveryStepKeepsTheStateLegal := fun _ _ => step_keeps_inv

/-- Settles O48: the reset state shows the outputs of a reset cycle over clear registers. -/
theorem theResetStateIsLegal : Obligations.TheResetStateIsLegal := by
  have hout : State.reset.out = idleOutputs .reset := by
    rw [idleOutputs, modstat_reset]
    rfl
  exact ⟨referenceConfig_wf, rfl, hout ▸ idleOutputs_legal _ _⟩

/-- Settles O45: the outputs of an instruction are legal, and only a momentary class drives a trace. -/
theorem atMostOnePulseAndOnlyWithNone : Obligations.AtMostOnePulseAndOnlyWithNone := by
  intro i s t h
  obtain ⟨hone, hnone⟩ := (exec_out_legal h).pulse
  obtain ⟨htrace, -⟩ := aTraceIsDrivenExactlyOnAModifierEdge i s t h
  refine ⟨hone, fun hpulse => ?_, fun hv => ?_⟩
  · by_contra hkind
    have hzero := hnone hkind
    simp only [Outputs.pulses, Nat.add_eq_zero_iff, Bool.toNat_eq_zero] at hzero
    simp [hzero] at hpulse
  · obtain ⟨m, hm, -⟩ := htrace.1 hv
    exact ⟨m, hm⟩

/-- Settles O54: every kind of cycle shows the register file it begins with. -/
theorem modstatShowsTheStateBeforeTheCycle : Obligations.ModstatShowsTheStateBeforeTheCycle :=
  fun _ _ _ h h' => ⟨step_modstat h, step_modstat h'⟩

/-- Settles O55, by induction on the run of bytes. -/
theorem aHeldModifierStaysSetUntilABreakOfItsSet : Obligations.AHeldModifierStaysSetUntilABreakOfItsSet :=
  fun _ _ _ hs hheld hbreak => runBytes_keeps_held hs hheld hbreak

/-- Settles O56: the counter goes from 0 to 1, to 2 and back to 0, and reaches the limit at the third press alone. -/
theorem threeMakeBytesOfAHeldEscapeKeyRequestShutdown :
    Obligations.ThreeMakeBytesOfAHeldEscapeKeyRequestShutdown := by
  intro s k hs _ hesc hmapped hdigit hlook
  have hpress : PressesEscape s (makeByte k) := ⟨hs, hlook, hmapped, hdigit, rfl⟩
  obtain ⟨t₁, hstep₁, hpress₁, hregs₁, hkind₁⟩ := hpress.again
  obtain ⟨t₂, hstep₂, hpress₂, hregs₂, hkind₂⟩ := hpress₁.again
  obtain ⟨t₃, hstep₃, -, hregs₃, hkind₃⟩ := hpress₂.again
  have hesc₁ : t₁.regs.esc = 1 := by rw [hregs₁, hesc]; rfl
  have hesc₂ : t₂.regs.esc = 2 := by rw [hregs₂, hesc₁]; rfl
  rw [hesc] at hkind₁
  rw [hesc₁] at hkind₂
  rw [hesc₂] at hkind₃
  refine ⟨t₃, _, _, _, runBytes_cons_of_next hstep₁ (runBytes_cons_of_next hstep₂ (runBytes_cons_of_next hstep₃ rfl)),
    hkind₁, hkind₂, hkind₃, ?_⟩
  rw [hregs₃, hesc₂, hregs₂, hregs₁]
  exact congrArg (fun esc => { s.regs with esc := esc }) hesc.symm

/-- Settles O59, by induction on the answers of the Port Reader. -/
theorem getBlockingPollsUntilACharacterOrTheEndOfTheRun :
    Obligations.GetBlockingPollsUntilACharacterOrTheEndOfTheRun := fun p _ answers hr =>
  ⟨fun hy => ⟨getBlocking_of_terminated hy answers, poll_of_terminated hy⟩, getBlocking_asks p answers hr⟩

/-- Settles O52: with no cycle presented the cycle at the ports is an idle one, and there is none to take. -/
theorem noPresentedCycleIsAnIdleCycle : Obligations.NoPresentedCycleIsAnIdleCycle := by
  rintro ⟨_, _, _, _, _⟩ ⟨hwf, hdone⟩ rfl
  obtain rfl : _ = true := hdone
  exact step_of_wf _ hwf

/-- Settles O53: without `rst` the cycle of a byte is refused before the first reset cycle, which sets `resetDone`. -/
theorem noStepBeforeTheFirstReset : Obligations.NoStepBeforeTheFirstReset := by
  refine fun s hwf hdone => ⟨fun raw => ?_, fun cycle rest hin hrst => ?_⟩
  · rw [step_of_wf (s.present raw) hwf, currentCycle_present, takeCycle_present]
    simp [runCycle, InputCycle.byte, hdone]
  · rw [← currentCycle_of_inputs_cons hin] at hrst
    exact ⟨_, step_of_rst hwf hrst, rfl, rfl⟩

end Sys2Proof.Machine
end
